-- ==== Sys2Proof/Word.lean ====
section
/-! DEFINITION. The word types of CSF: a byte, and the 16-bit field the length and the counters use (00_scope.md R9). -/

namespace Sys2Proof

/-- A byte: 8 bits, unsigned (00_scope.md R9, R18). -/
abbrev Byte := BitVec 8

/-- A 16-bit unsigned field: the payload length and the counters as wide as it (10_state.md R30). -/
abbrev Half := BitVec 16

end Sys2Proof
end

