-- ==== Sys2Proof/Config.lean ====
section
/-! DEFINITION. What a build of CSF fixes (00_scope.md R6 to R14), the moves of the transport (R16, R20, R73) as plain data,
and the values nothing in the spec fixes, as opaque constants. -/

namespace Sys2Proof

/-- OVERSIZE_POLICY (00_scope.md R11): what becomes of the payload of a packet longer than CAPACITY. -/
inductive OversizePolicy where
  | drop
  | drain
deriving DecidableEq, Repr

/-- ACTION_RESULT (00_scope.md R13). DESIGN CHOICE (log 4), safe: `commandCode` is the default of R13; `other id` is any other
total function of the packet, the opaque `Config.otherActionResult id`. -/
inductive ActionResult where
  | commandCode
  | other (id : Nat)
deriving DecidableEq, Repr

/-- The parameters of one build (00_scope.md R6 to R14). HEADER_LEN is fixed at 4 (R7) and is no parameter. -/
structure Params where
  /-- MAGIC (R6). -/
  magic : Byte
  /-- ACK_CMD (R10). -/
  ackCmd : Byte
  /-- CAPACITY (R8). -/
  capacity : Nat
  /-- OVERSIZE_POLICY (R11). -/
  policy : OversizePolicy
  /-- STALL_LIMIT (R12): `none` is the spec's None. -/
  stallLimit : Option Nat
  /-- ACTION_RESULT (R13). -/
  action : ActionResult
  /-- RX_DEPTH (R14): `none` is Unbounded. -/
  rxDepth : Option Nat
deriving DecidableEq, Repr

/-- The value every parameter has for this hardware (00_scope.md R6 to R14). -/
def Params.default : Params :=
  { magic := 0xAA, ackCmd := 0x06, capacity := 1024, policy := .drop, stallLimit := none, action := .commandCode,
    rxDepth := none }

/-- The range of CAPACITY (00_scope.md R8). -/
abbrev Params.ok (p : Params) : Prop := 1 ≤ p.capacity ∧ p.capacity ≤ 65535

/-- What the transport does around ONE micro-step: the bytes it appends to rxq before the micro-step (20_memory.md R73), and
how many bytes it delivers if the micro-step reads (00_scope.md R20): `none` is all that is asked for, `some k` at most k. -/
structure Turn where
  arrive : List Byte
  short : Option Nat
deriving DecidableEq, Repr, Inhabited

/-- A turn in which nothing arrives and a read delivers all that is asked for. -/
def Turn.quiet : Turn := { arrive := [], short := none }

/-- What the transport does after the turns listed in the state: nothing more (`quiet`), or the opaque stream
`Config.freeTurn` from its n-th turn on (`free n`). DESIGN CHOICE (log 5). -/
inductive Tail where
  | quiet
  | free (n : Nat)
deriving DecidableEq, Repr

/-- ACTION_RESULT of a build that does not keep the default: total functions nothing is known of (00_scope.md R13, 41_dispatcher.md
R150): of (cmd, len, chk, payload) alone. DESIGN CHOICE (log 4), safe: a free value. -/
opaque Config.otherActionResult : Nat → Byte → Half → Byte → List Byte → Byte

/-- The n-th turn of a transport under no law (20_memory.md R73, decisions D10 and D11). DESIGN CHOICE (log 5), safe: a free
value. -/
opaque Config.freeTurn : Nat → Turn

/-- What a byte of rxbuf holds after a reset: the byte at an index, in the n-th drawing of the buffer's contents (10_state.md R48,
93_implementation_defined.md I8: any value). DESIGN CHOICE (log 8), safe: a free value. -/
opaque Config.resetByte : Nat → Nat → Byte

end Sys2Proof
end

