-- ==== Sys2Proof/Syntax.lean ====
section
/-! DEFINITION. The instructions of CSF: the packets of the command map (30_encoding.md R80, R87), one constructor per row of
spec/opcode_table.json, each with its length field, its checksum byte and its payload. -/

namespace Sys2Proof

/-- A packet (30_encoding.md R80). `len` is the length field as sent, `chk` the checksum byte, `payload` the payload bytes. -/
inductive Instr where
  /-- 0x01, ACT1 (41_dispatcher.md R142). -/
  | act1 (len : Half) (chk : Byte) (payload : List Byte)
  /-- 0x02, ACT2 (R143). -/
  | act2 (len : Half) (chk : Byte) (payload : List Byte)
  /-- 0x03, ACT3 (R144). -/
  | act3 (len : Half) (chk : Byte) (payload : List Byte)
  /-- 0x04, DBG_ON (R145). -/
  | dbgOn (len : Half) (chk : Byte) (payload : List Byte)
  /-- 0x05, DBG_OFF (R146). -/
  | dbgOff (len : Half) (chk : Byte) (payload : List Byte)
  /-- 0x06, ACK (R147). -/
  | ack (len : Half) (chk : Byte) (payload : List Byte)
  /-- Any other command, UNKNOWN (R148). -/
  | unknown (cmd : Byte) (len : Half) (chk : Byte) (payload : List Byte)
deriving DecidableEq, Repr

/-- The length field of a packet. -/
def Instr.len : Instr → Half
  | .act1 len _ _ => len
  | .act2 len _ _ => len
  | .act3 len _ _ => len
  | .dbgOn len _ _ => len
  | .dbgOff len _ _ => len
  | .ack len _ _ => len
  | .unknown _ len _ _ => len

/-- The checksum byte of a packet. -/
def Instr.chk : Instr → Byte
  | .act1 _ chk _ => chk
  | .act2 _ chk _ => chk
  | .act3 _ chk _ => chk
  | .dbgOn _ chk _ => chk
  | .dbgOff _ chk _ => chk
  | .ack _ chk _ => chk
  | .unknown _ _ chk _ => chk

/-- The payload of a packet. -/
def Instr.payload : Instr → List Byte
  | .act1 _ _ payload => payload
  | .act2 _ _ payload => payload
  | .act3 _ _ payload => payload
  | .dbgOn _ _ payload => payload
  | .dbgOff _ _ payload => payload
  | .ack _ _ payload => payload
  | .unknown _ _ _ payload => payload

end Sys2Proof
end

