-- ==== Sys2Proof/WellFormed.lean ====
section
/-! DEFINITION. When a packet is one that the wire can carry and a build can complete (30_encoding.md R80, R88): three checks. -/

namespace Sys2Proof

/-- The payload has as many bytes as the length field says (30_encoding.md R80, R90). -/
def Instr.payloadMatches (i : Instr) : Bool := i.payload.length == i.len.toNat

/-- The length is one the build accepts, 0 to CAPACITY (00_scope.md R8). -/
def Instr.lenFits (p : Params) (i : Instr) : Bool := decide (i.len.toNat ≤ p.capacity)

/-- UNKNOWN stands only for a command that no other row lists: 0x00 or 0x07 to 0xFF (30_encoding.md R87). -/
def Instr.cmdUnlisted : Instr → Bool
  | .act1 _ _ _ => true
  | .act2 _ _ _ => true
  | .act3 _ _ _ => true
  | .dbgOn _ _ _ => true
  | .dbgOff _ _ _ => true
  | .ack _ _ _ => true
  | .unknown cmd _ _ _ => decide (cmd = 0x00 ∨ 0x07 ≤ cmd.toNat)

/-- A well-formed packet of a build. -/
def Instr.wf (p : Params) (i : Instr) : Bool := i.payloadMatches && i.lenFits p && i.cmdUnlisted

end Sys2Proof
end

