-- ==== Sys2Proof/Decode.lean ====
section
/-! DEFINITION. The packet decoder and encoder (30_encoding.md R80 to R90, 41_dispatcher.md R141), and the header words of
spec/opcode_table.json (R81). The framer reads the same fields with the same functions, a part at a time. -/

namespace Sys2Proof

/-- Why a list of bytes is no packet of a build. -/
inductive Reject where
  /-- There is no byte. -/
  | empty
  /-- The first byte is not MAGIC (30_encoding.md R80): noise. -/
  | notMagic (b : Byte)
  /-- Fewer than 4 bytes follow MAGIC (20_memory.md R64). -/
  | headerShort
  /-- The length field is above CAPACITY (30_encoding.md R88). -/
  | frameTooLarge (len : Nat)
  /-- Fewer payload bytes than the length field says (20_memory.md R65). -/
  | payloadShort
deriving DecidableEq, Repr

/-- Length assembly, low byte first (30_encoding.md R82). -/
def assembleLen (lo hi : Byte) : Half := lo.setWidth 16 ||| (hi.setWidth 16 <<< 8)

/-- length[7:0], frame byte 2 (30_encoding.md R80). -/
def lenLow (len : Half) : Byte := len.extractLsb' 0 8

/-- length[15:8], frame byte 3 (30_encoding.md R80). -/
def lenHigh (len : Half) : Byte := len.extractLsb' 8 8

/-- The row a command byte selects (41_dispatcher.md R141), all 8 bits compared, in the rule's order. -/
def lookup (cmd : Byte) (len : Half) (chk : Byte) (payload : List Byte) : Instr :=
  if cmd = 0x01 then .act1 len chk payload
  else if cmd = 0x02 then .act2 len chk payload
  else if cmd = 0x03 then .act3 len chk payload
  else if cmd = 0x04 then .dbgOn len chk payload
  else if cmd = 0x05 then .dbgOff len chk payload
  else if cmd = 0x06 then .ack len chk payload
  else .unknown cmd len chk payload

/-- Decode the bytes after MAGIC: the header, then the payload (30_encoding.md R80, R90; the size check comes before the
availability of the payload, 40_framer.md R101). -/
def decodeAfterMagic (p : Params) : List Byte → Except Reject (Instr × List Byte)
  | cmd :: lo :: hi :: chk :: rest =>
    let len := assembleLen lo hi
    if p.capacity < len.toNat then .error (.frameTooLarge len.toNat)
    else if rest.length < len.toNat then .error .payloadShort
    else .ok (lookup cmd len chk (rest.take len.toNat), rest.drop len.toNat)
  | _ => .error .headerShort

/-- Decode a packet at the head of a list of bytes; the rest of the list comes back with it. -/
def decode (p : Params) : List Byte → Except Reject (Instr × List Byte)
  | [] => .error .empty
  | b :: rest => if b = p.magic then decodeAfterMagic p rest else .error (.notMagic b)

/-- The command byte of a packet (30_encoding.md R87). -/
def Instr.cmd : Instr → Byte
  | .act1 _ _ _ => 0x01
  | .act2 _ _ _ => 0x02
  | .act3 _ _ _ => 0x03
  | .dbgOn _ _ _ => 0x04
  | .dbgOff _ _ _ => 0x05
  | .ack _ _ _ => 0x06
  | .unknown cmd _ _ _ => cmd

/-- The mnemonic of a packet's row in spec/opcode_table.json. -/
def Instr.mnemonic : Instr → String
  | .act1 _ _ _ => "ACT1"
  | .act2 _ _ _ => "ACT2"
  | .act3 _ _ _ => "ACT3"
  | .dbgOn _ _ _ => "DBG_ON"
  | .dbgOff _ _ _ => "DBG_OFF"
  | .ack _ _ _ => "ACK"
  | .unknown _ _ _ _ => "UNKNOWN"

/-- Frame bytes 0 to 4 (30_encoding.md R80). -/
def frameHeader (p : Params) (cmd : Byte) (len : Half) (chk : Byte) : List Byte :=
  [p.magic, cmd, lenLow len, lenHigh len, chk]

/-- The bytes of a packet, in the order of the wire (30_encoding.md R80). -/
def encode (p : Params) (i : Instr) : List Byte := frameHeader p i.cmd i.len i.chk ++ i.payload

/-- The header word W of five bytes, the first in bits 7..0 (30_encoding.md R81). -/
def headerWord (b0 b1 b2 b3 b4 : Byte) : BitVec 40 :=
  b0.setWidth 40 ||| (b1.setWidth 40 <<< 8) ||| (b2.setWidth 40 <<< 16) ||| (b3.setWidth 40 <<< 24) |||
    (b4.setWidth 40 <<< 32)

/-- The header word of a packet (30_encoding.md R81). -/
def Instr.word (p : Params) (i : Instr) : BitVec 40 := headerWord p.magic i.cmd (lenLow i.len) (lenHigh i.len) i.chk

/-- A row of spec/opcode_table.json: a header word is the row's when `word &&& mask = value`. -/
structure TableRow where
  mnemonic : String
  mask : BitVec 40
  value : BitVec 40
deriving DecidableEq, Repr

/-- spec/opcode_table.json, in its order; the last row has the lowest priority. -/
def opcodeTable : List TableRow :=
  [ ⟨"ACT1", 0x000000FFFF#40, 0x00000001AA#40⟩,
    ⟨"ACT2", 0x000000FFFF#40, 0x00000002AA#40⟩,
    ⟨"ACT3", 0x000000FFFF#40, 0x00000003AA#40⟩,
    ⟨"DBG_ON", 0x000000FFFF#40, 0x00000004AA#40⟩,
    ⟨"DBG_OFF", 0x000000FFFF#40, 0x00000005AA#40⟩,
    ⟨"ACK", 0x000000FFFF#40, 0x00000006AA#40⟩,
    ⟨"UNKNOWN", 0x00000000FF#40, 0x00000000AA#40⟩ ]

/-- The mnemonic of the first row of the table that a header word matches. -/
def tableMnemonic (word : BitVec 40) : Option String :=
  (opcodeTable.find? (fun r => word &&& r.mask == r.value)).map TableRow.mnemonic

/-- Byte k of a word, bit 0 the least significant bit of byte 0 (30_encoding.md R81). -/
def wordByte (w k : Nat) : Byte := BitVec.ofNat 8 (w >>> (8 * k))

/-- The length field that a word holds in its bits 31..16 (30_encoding.md R81). -/
def wordLen (w : Nat) : Nat := (w >>> 16) % 65536

/-- The bytes of a packet whose bits are w, every bit above nbits being 0, in wire order: the frame header and the payload bytes that
the length field counts (none where the length is above CAPACITY: no such packet is complete, log 11). -/
def tableBytes (nbits w : Nat) : List Byte :=
  let bits := w % 2 ^ nbits
  (List.range (5 + if wordLen bits ≤ Params.default.capacity then wordLen bits else 0)).map (wordByte bits)

/-- The packet the decoder of the default build reads from a word of spec/opcode_table.json. -/
def decodeTableWord (nbits w : Nat) : Option Instr :=
  match decode Params.default (tableBytes nbits w) with
  | .ok (i, _) => some i
  | .error _ => none

end Sys2Proof
end

