-- ==== Sys2Proof/Machine/State.lean ====
section
/-! DEFINITION. The state of CSF as plain data: the block's registers (10_state.md R30), the transport's queues (R44), the build's
parameters, the transport's coming turns and the log of stops; the reasons a step can stop; and the state at reset (R48). -/

namespace Sys2Proof.Machine

/-- The framer state `fsm` (10_state.md R32). -/
inductive Fsm where
  | idle
  | rdHdr
  | rdPay
  | drain
deriving DecidableEq, Repr

/-- The kinds of Error (60_exceptions.md R170). -/
inductive ErrKind where
  | frameTooLarge
  | transportReadFailure
  | transportStall
deriving DecidableEq, Repr

/-- An error with the info the spec records for a reader (00_scope.md R21, 60_exceptions.md R170). -/
inductive ErrInfo where
  /-- The declared length. -/
  | frameTooLarge (len : Nat)
  /-- n asked, k delivered. -/
  | transportReadFailure (n k : Nat)
  /-- The age. -/
  | transportStall (age : Nat)
deriving DecidableEq, Repr

/-- The Outcome a call returns to the host (00_scope.md R17): an error carries its kind alone. -/
inductive CallOutcome where
  | pending
  | completed (r : Byte)
  | error (k : ErrKind)
deriving DecidableEq, Repr

/-- How a call stopped (00_scope.md R21): its Outcome, with the info of an error. -/
inductive Stop where
  | pending
  | completed (r : Byte)
  | error (e : ErrInfo)
deriving DecidableEq, Repr

/-- The access to rxbuf that the spec gives no meaning. No micro-step makes one (20_memory.md R69). -/
inductive Fault where
  /-- Raised by `State.memRead` and `State.memWrite` for an access of n bytes at i that leaves 0..CAPACITY-1 (00_scope.md R19).
  DESIGN CHOICE (log 8), safe: the machine stops where the spec has no access. -/
  | rxbufOutOfBounds (i n : Nat)
deriving DecidableEq, Repr

/-- What the model gives no meaning. -/
inductive Refusal where
  /-- Raised by `exec` alone, for an instruction that has no meaning yet (there is none). Safe. -/
  | notModelled (mnemonic : String)
  /-- Raised by `processOnce` when the host starts a call while one runs (70_reset_and_hazards.md R205, decision D22). Safe:
  the spec gives it no transition. -/
  | overlappingCall
  /-- Raised by `isDebugMode` when the host reads debug_mode while a call runs (10_state.md R49, I18). Safe: the spec defines the
  read between calls only. -/
  | debugModeReadInCall
deriving DecidableEq, Repr

/-- The cells of rxbuf written since reset, addresses strictly rising. An unlisted address holds what it held at reset, a free
value (log 8). -/
abbrev Memory := List Host.Cell

/-- The whole state: registers, queues, parameters, and the model's own fields. -/
@[ext]
structure State where
  /-- The parameters of the build (00_scope.md R6 to R14); no step writes them. DESIGN CHOICE (log 3). -/
  cfg : Params
  /-- The framer state (10_state.md R32). -/
  fsm : Fsm
  /-- Command of the current or last packet (R33). -/
  hdrCmd : Byte
  /-- Payload length of the current or last packet (R34). -/
  hdrLen : Half
  /-- Checksum byte of the current or last packet (R35). -/
  hdrChk : Byte
  /-- The payload-bytes-read counter (R37): written with 0 alone and read by no rule. DESIGN CHOICE (log 7), safe. -/
  payCnt : Half
  /-- The receive buffer (R39): its bytes written since reset; `State.rxByte` reads it. -/
  rxbuf : Memory
  /-- Which drawing of free bytes the rest of rxbuf holds (R48: any value). The model's own, DESIGN CHOICE (log 8). -/
  rxDraw : Nat
  /-- The debug-mode flag (R38). -/
  debugMode : Bool
  /-- Bytes of an oversized payload still to be discarded (R40); 0 under Drop. DESIGN CHOICE (log 7), safe. -/
  drainRem : Half
  /-- Pending calls of the packet in flight (R40); 0 without STALL_LIMIT. DESIGN CHOICE (log 7), safe. -/
  stallAge : Nat
  /-- Bytes received and not yet consumed (R44). -/
  rxq : List Byte
  /-- Bytes CSF has written, in order (R44). -/
  txq : List Byte
  /-- The transport's coming turns, one per micro-step. The model's own, DESIGN CHOICE (log 5). -/
  turns : List Turn
  /-- What the transport does after them. The model's own, DESIGN CHOICE (log 5). -/
  tail : Tail
  /-- A call is running (00_scope.md R15). The model's own, DESIGN CHOICE (log 6). -/
  inCall : Bool
  /-- The stops of all calls, oldest first. The model's own, no register (10_state.md R42), DESIGN CHOICE (log 6). -/
  stops : List Stop
deriving DecidableEq, Repr

/-- The state right after reset (10_state.md R48), with the default build, an empty quiet transport (logs 5, 9), no call running
(log 6), and every byte of rxbuf free (log 8). -/
def State.reset : State :=
  { cfg := Params.default, fsm := .idle, hdrCmd := 0x00, hdrLen := 0x0000, hdrChk := 0x00, payCnt := 0x0000, rxbuf := [],
    rxDraw := 0, debugMode := false, drainRem := 0x0000, stallAge := 0, rxq := [], txq := [], turns := [], tail := .quiet,
    inCall := false, stops := [] }

end Sys2Proof.Machine
end

