-- ==== Sys2Proof/Machine/Ops.lean ====
section
/-! DEFINITION. The named operations over the state: rxbuf, the transport's primitives, the registers, the stops of a call (error
entry among them) and reset. Every meaning and every micro-step is written with them. -/

namespace Sys2Proof.Machine

/-! ### rxbuf -/

/-- The canonical form of rxbuf: addresses strictly rising. -/
abbrev Memory.wf (m : Memory) : Prop := List.Pairwise (fun x y : Host.Cell => x.1 < y.1) m

/-- The byte at index i, if one has been written since reset. -/
def Memory.load : Memory → Nat → Option Byte
  | [], _ => none
  | (a, b) :: m, i => if a = i then some b else Memory.load m i

/-- Write one byte, keeping the addresses in order. -/
def Memory.store : Memory → Nat → Byte → Memory
  | [], i, v => [(i, v)]
  | (a, b) :: m, i, v =>
    if i < a then (i, v) :: (a, b) :: m else if i = a then (i, v) :: m else (a, b) :: Memory.store m i v

/-- Write a list of bytes, the first at index i (20_memory.md R61). -/
def Memory.storeAll (m : Memory) (i : Nat) : List Byte → Memory
  | [] => m
  | v :: vs => Memory.store (Memory.storeAll m (i + 1) vs) i v

/-- The byte at index i: the one written since reset, or what the byte held at reset. -/
def Memory.byteAt (free : Nat → Byte) (m : Memory) (i : Nat) : Byte := (m.load i).getD (free i)

/-- The n bytes from index i on. -/
def Memory.loadAll (free : Nat → Byte) (m : Memory) (i : Nat) : Nat → List Byte
  | 0 => []
  | n + 1 => Memory.byteAt free m i :: Memory.loadAll free m (i + 1) n

/-- `rxbuf[i]` (00_scope.md R19): a byte nothing has written since reset holds a free value (10_state.md R48, log 8). -/
def State.rxByte (s : State) (i : Nat) : Byte := s.rxbuf.byteAt (Config.resetByte s.rxDraw) i

/-- rxbuf takes the contents m. -/
def State.setRxbuf (m : Memory) (s : State) : State := { s with rxbuf := m }

/-- `MemWrite(i, |v|, v)` (00_scope.md R19). -/
def State.memWrite (i : Nat) (v : List Byte) (s : State) : Except Fault State :=
  if i + v.length ≤ s.cfg.capacity then .ok (s.setRxbuf (s.rxbuf.storeAll i v))
  else .error (.rxbufOutOfBounds i v.length)

/-- `MemRead(i, n)` (00_scope.md R19): it answers wherever i + n ≤ CAPACITY. -/
def State.memRead (i n : Nat) (s : State) : Except Fault (List Byte) :=
  if i + n ≤ s.cfg.capacity then .ok (s.rxbuf.loadAll (Config.resetByte s.rxDraw) i n)
  else .error (.rxbufOutOfBounds i n)

/-! ### The transport -/

/-- `RxAvail()` (00_scope.md R20): the bytes received and not yet consumed, of which the transport reports at most RX_DEPTH (R14).
DESIGN CHOICE (log 10), unsafe: a bounded transport holds the further bytes back in rxq. -/
def State.rxAvail (s : State) : Nat :=
  match s.cfg.rxDepth with
  | none => s.rxq.length
  | some d => min s.rxq.length d

/-- How many of n bytes asked for the transport delivers in a turn (00_scope.md R20): never more than n. -/
def delivered (t : Turn) (n : Nat) : Nat :=
  match t.short with
  | none => n
  | some k => min k n

/-- Remove the first k bytes of rxq. -/
def State.consume (k : Nat) (s : State) : State := { s with rxq := s.rxq.drop k }

/-- `RxRead(n)` (00_scope.md R20): the bytes delivered, and the state without them. -/
def State.rxRead (t : Turn) (n : Nat) (s : State) : List Byte × State :=
  (s.rxq.take (delivered t n), s.consume (delivered t n))

/-- `TxWrite(bytes)` (00_scope.md R20): one atomic append (20_memory.md R66), which always succeeds (log 15). -/
def State.txWrite (bytes : List Byte) (s : State) : State := { s with txq := s.txq ++ bytes }

/-- ACK_FRAME (00_scope.md R10, 30_encoding.md R89). -/
def ackFrame (p : Params) : List Byte := [p.magic, p.ackCmd, 0x00, 0x00, 0x00]

/-- The transport's turn around the coming micro-step. -/
def State.turn (s : State) : Turn :=
  match s.turns with
  | t :: _ => t
  | [] =>
    match s.tail with
    | .quiet => Turn.quiet
    | .free n => Config.freeTurn n

/-- The turn is taken from the list, or from the stream once the list is empty. -/
def State.advanceTurn (s : State) : State :=
  match s.turns with
  | _ :: ts => { s with turns := ts }
  | [] =>
    match s.tail with
    | .quiet => s
    | .free n => { s with tail := .free (n + 1) }

/-- The transport appends bytes to rxq (20_memory.md R73). -/
def State.arrive (bytes : List Byte) (s : State) : State := { s with rxq := s.rxq ++ bytes }

/-- A call is running. -/
def State.enterCall (s : State) : State := { s with inCall := true }

/-- The state a micro-step acts on (40_framer.md R100): the host's call is running (log 2) and the turn's bytes have arrived. -/
def State.openMicro (s : State) : State := (s.advanceTurn.arrive s.turn.arrive).enterCall

/-! ### The registers of the framer -/

/-- `fsm <- f` (00_scope.md R19). -/
def State.setFsm (f : Fsm) (s : State) : State := { s with fsm := f }

/-- The header registers, written together (10_state.md R36). -/
def State.loadHeader (cmd : Byte) (len : Half) (chk : Byte) (s : State) : State :=
  { s with hdrCmd := cmd, hdrLen := len, hdrChk := chk }

/-- `pay_cnt <- n` (10_state.md R37). -/
def State.setPayCnt (n : Half) (s : State) : State := { s with payCnt := n }

/-- `drain_rem <- n` (10_state.md R40). -/
def State.setDrainRem (n : Half) (s : State) : State := { s with drainRem := n }

/-- `stall_age <- n` (10_state.md R40). -/
def State.setStallAge (n : Nat) (s : State) : State := { s with stallAge := n }

/-- The 2-bit code of fsm (10_state.md R32). -/
def Fsm.code : Fsm → BitVec 2
  | .idle => 0
  | .rdHdr => 1
  | .rdPay => 2
  | .drain => 3

/-! ### Stops -/

/-- The kind of an error (60_exceptions.md R170). -/
def ErrInfo.kind : ErrInfo → ErrKind
  | .frameTooLarge _ => .frameTooLarge
  | .transportReadFailure _ _ => .transportReadFailure
  | .transportStall _ => .transportStall

/-- The Outcome of a stop: the info stays behind (00_scope.md R21). -/
def Stop.outcome : Stop → CallOutcome
  | .pending => .pending
  | .completed r => .completed r
  | .error e => .error e.kind

/-- An Outcome as bits (30_encoding.md R94). -/
structure OutcomeWord where
  tag : BitVec 2
  result : Byte
  kind : BitVec 2
deriving DecidableEq, Repr

/-- The code of an error kind (60_exceptions.md R170). -/
def ErrKind.code : ErrKind → BitVec 2
  | .frameTooLarge => 1
  | .transportReadFailure => 2
  | .transportStall => 3

/-- The encoding of an Outcome (30_encoding.md R94). -/
def CallOutcome.word : CallOutcome → OutcomeWord
  | .pending => { tag := 0, result := 0x00, kind := 0 }
  | .completed r => { tag := 1, result := r, kind := 0 }
  | .error k => { tag := 2, result := 0x00, kind := k.code }

/-- The call ends (00_scope.md R21): its stop goes to the host, and every write before it stands. -/
def State.stop (e : Stop) (s : State) : State := { s with inCall := false, stops := s.stops ++ [e] }

/-- `return Completed(r)` (00_scope.md R21). -/
def State.complete (r : Byte) (s : State) : State := s.stop (.completed r)

/-- Error entry (60_exceptions.md R178): the framer goes to f and the call returns the error. Nothing else is saved, and no handler
runs. There is no return from an error (R179). -/
def State.raiseError (e : ErrInfo) (f : Fsm) (s : State) : State := (s.setFsm f).stop (.error e)

/-- What an abandoned packet leaves of a drain: `if OVERSIZE_POLICY = Drain: drain_rem <- 0` (40_framer.md R117). -/
def State.clearDrain (s : State) : State :=
  match s.cfg.policy with
  | .drop => s
  | .drain => s.setDrainRem 0

/-- A packet in flight ends a call Pending under STALL_LIMIT = L: its age goes up, and past L it is abandoned (40_framer.md R117). -/
def State.ageStop (l : Nat) (s : State) : State :=
  if l < s.stallAge + 1 then
    (s.setStallAge (s.stallAge + 1)).clearDrain.raiseError (.transportStall (s.stallAge + 1)) .idle
  else (s.setStallAge (s.stallAge + 1)).stop .pending

/-- `PendingStop()` (40_framer.md R117). -/
def State.pendingStop (s : State) : State :=
  match s.cfg.stallLimit with
  | none => s.stop .pending
  | some l => if s.fsm = .idle then s.stop .pending else s.ageStop l

/-! ### Reset -/

/-- A reset of the block (70_reset_and_hazards.md R200): every register as 10_state.md R48 says, rxbuf with freshly drawn free
bytes (log 8); the transport's queues and coming turns, the build and the host's log stay. A reset starts a session and is no move of
`step` (log 12). -/
def State.resetBlock (s : State) : State :=
  { s with fsm := .idle, hdrCmd := 0x00, hdrLen := 0x0000, hdrChk := 0x00, payCnt := 0x0000, rxbuf := [],
           rxDraw := s.rxDraw + 1, debugMode := false, drainRem := 0x0000, stallAge := 0, inCall := false }

end Sys2Proof.Machine
end

