-- ==== Sys2Proof/Machine/Operands.lean ====
section
/-! DEFINITION. What an instruction reads: the payload view of the receive buffer (41_dispatcher.md R140) and the result of a debug
action (00_scope.md R13). CSF has no other operand form: command, length and checksum come from the header registers. -/

namespace Sys2Proof.Machine

/-- The payload handed to the dispatcher (40_framer.md R125): the first hdr_len bytes of rxbuf, none when hdr_len = 0. -/
def State.payloadView (s : State) : Except Fault (List Byte) := s.memRead 0 s.hdrLen.toNat

/-- ACTION_RESULT(cmd, len, chk, payload) (00_scope.md R13): the command code by default, else an opaque function of the packet
(log 4). -/
def actionResult (a : ActionResult) (cmd : Byte) (len : Half) (chk : Byte) (payload : List Byte) : Byte :=
  match a with
  | .commandCode => cmd
  | .other id => Config.otherActionResult id cmd len chk payload

end Sys2Proof.Machine
end

