-- ==== Sys2Proof/Machine/Flags.lean ====
section
/-! DEFINITION. The one flag of CSF, debug_mode (10_state.md R38, R42): its writes, its gate and the host's read of it. No operation
computes a flag from a result. -/

namespace Sys2Proof.Machine

/-- `debug_mode <- b` (10_state.md R38). -/
def State.setDebugMode (b : Bool) (s : State) : State := { s with debugMode := b }

/-- The result of a gated debug action (41_dispatcher.md R142 to R144): the action's when debug_mode = 1, 0x00 when it is 0. -/
def State.gatedResult (cmd : Byte) (len : Half) (chk : Byte) (payload : List Byte) (s : State) : Byte :=
  if s.debugMode then actionResult s.cfg.action cmd len chk payload else 0x00

/-- `is_debug_mode()` (10_state.md R49): a read without side effect, defined between calls only (log 14). -/
def isDebugMode (s : State) : Except Refusal Bool :=
  if s.inCall then .error .debugModeReadInCall else .ok s.debugMode

end Sys2Proof.Machine
end

