-- ==== Sys2Proof/Machine/Actions.lean ====
section
/-! DEFINITION. The gated debug actions ACT1, ACT2, ACT3 (41_dispatcher.md R142 to R144, R150). Each writes nothing and completes
the call with its gated result. -/

namespace Sys2Proof.Machine

/-- ACT1 (41_dispatcher.md R142). -/
def execAct1 (len : Half) (chk : Byte) (payload : List Byte) (s : State) : Host.Outcome State Fault Refusal :=
  .next (s.complete (s.gatedResult 0x01 len chk payload))

/-- ACT2 (41_dispatcher.md R143). -/
def execAct2 (len : Half) (chk : Byte) (payload : List Byte) (s : State) : Host.Outcome State Fault Refusal :=
  .next (s.complete (s.gatedResult 0x02 len chk payload))

/-- ACT3 (41_dispatcher.md R144). -/
def execAct3 (len : Half) (chk : Byte) (payload : List Byte) (s : State) : Host.Outcome State Fault Refusal :=
  .next (s.complete (s.gatedResult 0x03 len chk payload))

end Sys2Proof.Machine
end

