-- ==== Sys2Proof/Machine/Others.lean ====
section
/-! DEFINITION. A received ACK and every unlisted command (41_dispatcher.md R147, R148): no effect, result 0x00. -/

namespace Sys2Proof.Machine

/-- ACK received (41_dispatcher.md R147). -/
def execAck (_len : Half) (_chk : Byte) (_payload : List Byte) (s : State) : Host.Outcome State Fault Refusal :=
  .next (s.complete 0x00)

/-- UNKNOWN (41_dispatcher.md R148): a normal completion (60_exceptions.md R174). -/
def execUnknown (_cmd : Byte) (_len : Half) (_chk : Byte) (_payload : List Byte) (s : State) :
    Host.Outcome State Fault Refusal :=
  .next (s.complete 0x00)

end Sys2Proof.Machine
end

