-- ==== Sys2Proof/Machine/Toggles.lean ====
section
/-! DEFINITION. The mode toggles DBG_ON and DBG_OFF (41_dispatcher.md R145, R146): they write debug_mode and the acknowledgement
frame, whatever the mode was; length, checksum and payload are ignored (decision D23). -/

namespace Sys2Proof.Machine

/-- A toggle: the flag is written, then the acknowledgement frame, then the call completes with r. -/
def State.toggle (on : Bool) (r : Byte) (s : State) : State :=
  ((s.setDebugMode on).txWrite (ackFrame s.cfg)).complete r

/-- DBG_ON (41_dispatcher.md R145). -/
def execDbgOn (_len : Half) (_chk : Byte) (_payload : List Byte) (s : State) : Host.Outcome State Fault Refusal :=
  .next (s.toggle true 0x04)

/-- DBG_OFF (41_dispatcher.md R146). -/
def execDbgOff (_len : Half) (_chk : Byte) (_payload : List Byte) (s : State) : Host.Outcome State Fault Refusal :=
  .next (s.toggle false 0x05)

end Sys2Proof.Machine
end

