-- ==== Sys2Proof/Machine/Dispatch.lean ====
section
/-! DEFINITION. The dispatcher's command map as one definition (30_encoding.md R87, 41_dispatcher.md R140): a packet's meaning. -/

namespace Sys2Proof.Machine

open Sys2Proof

/-- Dispatch of one complete packet (41_dispatcher.md R140), after which the call returns Completed (40_framer.md R125). -/
def exec (i : Instr) (s : State) : Host.Outcome State Fault Refusal :=
  match i with
  | .act1 len chk payload => Sys2Proof.Machine.execAct1 len chk payload s
  | .act2 len chk payload => Sys2Proof.Machine.execAct2 len chk payload s
  | .act3 len chk payload => Sys2Proof.Machine.execAct3 len chk payload s
  | .dbgOn len chk payload => Sys2Proof.Machine.execDbgOn len chk payload s
  | .dbgOff len chk payload => Sys2Proof.Machine.execDbgOff len chk payload s
  | .ack len chk payload => Sys2Proof.Machine.execAck len chk payload s
  | .unknown cmd len chk payload => Sys2Proof.Machine.execUnknown cmd len chk payload s

end Sys2Proof.Machine
end

