-- ==== Sys2Proof/Machine/Framer.lean ====
section
/-! DEFINITION. The framer (40_framer.md): one definition per micro-step rule R102 to R116, the table that selects among them (R101),
and the hand-off to the dispatcher (R125). Each takes the transport's turn `t` and the state the micro-step acts on; the rule's guard
is in the selection. -/

namespace Sys2Proof.Machine

/-- The micro-step rules of the table of 40_framer.md R101. -/
inductive MicroRule where
  | idleEmpty
  | idleNoise
  | idleMagic
  | idleShort
  | hdrWait
  | hdrAssemble
  | hdrShort
  | payZero
  | payOversize
  | payWait
  | payRead
  | payShort
  | drainWait
  | drainDiscard
  | drainShort
deriving DecidableEq, Repr

/-- The bytes asked for in DRAIN: min(RxAvail(), drain_rem) (40_framer.md R101). -/
def State.drainCount (s : State) : Nat := min s.rxAvail s.drainRem.toNat

/-- The table of 40_framer.md R101: which rule a micro-step applies. -/
def selectRule (t : Turn) (s : State) : MicroRule :=
  match s.fsm with
  | .idle =>
    if s.rxAvail = 0 then .idleEmpty
    else if delivered t 1 = 0 then .idleShort
    else if s.rxq.head? = some s.cfg.magic then .idleMagic
    else .idleNoise
  | .rdHdr =>
    if s.rxAvail < 4 then .hdrWait
    else if delivered t 4 < 4 then .hdrShort
    else .hdrAssemble
  | .rdPay =>
    if s.hdrLen.toNat = 0 then .payZero
    else if s.cfg.capacity < s.hdrLen.toNat then .payOversize
    else if s.rxAvail < s.hdrLen.toNat then .payWait
    else if delivered t s.hdrLen.toNat < s.hdrLen.toNat then .payShort
    else .payRead
  | .drain =>
    if s.rxAvail = 0 then .drainWait
    else if delivered t s.drainCount < s.drainCount then .drainShort
    else .drainDiscard

/-- Dispatch(cmd, len, chk, payload) (41_dispatcher.md R140, R141): the meaning of the packet the command byte selects. -/
def dispatch (cmd : Byte) (len : Half) (chk : Byte) (payload : List Byte) (s : State) : Host.Outcome State Fault Refusal :=
  exec (lookup cmd len chk payload) s

/-- IDLE-EMPTY (40_framer.md R102). -/
def idleEmpty (s : State) : Host.Outcome State Fault Refusal := .next s.pendingStop

/-- IDLE-NOISE (40_framer.md R103). -/
def idleNoise (t : Turn) (s : State) : Host.Outcome State Fault Refusal := .next (s.rxRead t 1).2

/-- `if STALL_LIMIT != None: stall_age <- 0` (40_framer.md R104). -/
def State.restartAge (s : State) : State :=
  match s.cfg.stallLimit with
  | none => s
  | some _ => s.setStallAge 0

/-- IDLE-MAGIC (40_framer.md R104). -/
def idleMagic (t : Turn) (s : State) : Host.Outcome State Fault Refusal :=
  .next (((s.rxRead t 1).2.setFsm .rdHdr).setPayCnt 0).restartAge

/-- IDLE-SHORT (40_framer.md R105). -/
def idleShort (t : Turn) (s : State) : Host.Outcome State Fault Refusal :=
  .next ((s.rxRead t 1).2.raiseError (.transportReadFailure 1 (delivered t 1)) .idle)

/-- HDR-WAIT (40_framer.md R106). -/
def hdrWait (s : State) : Host.Outcome State Fault Refusal := .next s.pendingStop

/-- HDR-ASSEMBLE (40_framer.md R107): h[0] the command, h[1] and h[2] the length, h[3] the checksum. The read has delivered 4 bytes,
so no byte is taken from the default. -/
def hdrAssemble (t : Turn) (s : State) : Host.Outcome State Fault Refusal :=
  let h := (s.rxRead t 4).1
  .next (((s.rxRead t 4).2.loadHeader (h.getD 0 0) (assembleLen (h.getD 1 0) (h.getD 2 0)) (h.getD 3 0)).setFsm .rdPay)

/-- HDR-SHORT (40_framer.md R108). -/
def hdrShort (t : Turn) (s : State) : Host.Outcome State Fault Refusal :=
  .next ((s.rxRead t 4).2.raiseError (.transportReadFailure 4 (delivered t 4)) .idle)

/-- PAY-ZERO (40_framer.md R109). -/
def payZero (s : State) : Host.Outcome State Fault Refusal := dispatch s.hdrCmd 0 s.hdrChk [] (s.setFsm .idle)

/-- PAY-OVERSIZE (40_framer.md R110). -/
def payOversize (s : State) : Host.Outcome State Fault Refusal :=
  match s.cfg.policy with
  | .drop => .next (s.raiseError (.frameTooLarge s.hdrLen.toNat) .idle)
  | .drain => .next ((s.setDrainRem s.hdrLen).raiseError (.frameTooLarge s.hdrLen.toNat) .drain)

/-- PAY-WAIT (40_framer.md R111). -/
def payWait (s : State) : Host.Outcome State Fault Refusal := .next s.pendingStop

/-- The hand-off of a buffered packet (40_framer.md R112, R125): fsm is IDLE, and the payload is read back from rxbuf. -/
def handOff (s : State) : Host.Outcome State Fault Refusal :=
  match s.payloadView with
  | .error f => .fault f
  | .ok payload => dispatch s.hdrCmd s.hdrLen s.hdrChk payload (s.setFsm .idle)

/-- PAY-READ (40_framer.md R112). -/
def payRead (t : Turn) (s : State) : Host.Outcome State Fault Refusal :=
  match (s.rxRead t s.hdrLen.toNat).2.memWrite 0 (s.rxRead t s.hdrLen.toNat).1 with
  | .error f => .fault f
  | .ok s' => handOff s'

/-- PAY-SHORT (40_framer.md R113). -/
def payShort (t : Turn) (s : State) : Host.Outcome State Fault Refusal :=
  match (s.rxRead t s.hdrLen.toNat).2.memWrite 0 (s.rxRead t s.hdrLen.toNat).1 with
  | .error f => .fault f
  | .ok s' => .next (s'.raiseError (.transportReadFailure s.hdrLen.toNat (delivered t s.hdrLen.toNat)) .idle)

/-- DRAIN-WAIT (40_framer.md R114). -/
def drainWait (s : State) : Host.Outcome State Fault Refusal := .next s.pendingStop

/-- `drain_rem <- drain_rem - n; if drain_rem = 0: fsm <- IDLE` (40_framer.md R115). In a state with drain_rem = 0, which no run
reaches, n is 0 and fsm returns to IDLE: DEDUCED (log 13), safe. -/
def State.drained (n : Nat) (s : State) : State :=
  if s.drainRem.toNat - n = 0 then (s.setDrainRem 0).setFsm .idle
  else s.setDrainRem (BitVec.ofNat 16 (s.drainRem.toNat - n))

/-- DRAIN-DISCARD (40_framer.md R115). -/
def drainDiscard (t : Turn) (s : State) : Host.Outcome State Fault Refusal :=
  .next ((s.rxRead t s.drainCount).2.drained s.drainCount)

/-- DRAIN-SHORT (40_framer.md R116). -/
def drainShort (t : Turn) (s : State) : Host.Outcome State Fault Refusal :=
  .next (((s.rxRead t s.drainCount).2.setDrainRem 0).raiseError
    (.transportReadFailure s.drainCount (delivered t s.drainCount)) .idle)

/-- One rule of the table applied. -/
def applyRule (r : MicroRule) (t : Turn) (s : State) : Host.Outcome State Fault Refusal :=
  match r with
  | .idleEmpty => idleEmpty s
  | .idleNoise => idleNoise t s
  | .idleMagic => idleMagic t s
  | .idleShort => idleShort t s
  | .hdrWait => hdrWait s
  | .hdrAssemble => hdrAssemble t s
  | .hdrShort => hdrShort t s
  | .payZero => payZero s
  | .payOversize => payOversize s
  | .payWait => payWait s
  | .payRead => payRead t s
  | .payShort => payShort t s
  | .drainWait => drainWait s
  | .drainDiscard => drainDiscard t s
  | .drainShort => drainShort t s

/-- `MicroStep()` (40_framer.md R101). -/
def microStep (t : Turn) (s : State) : Host.Outcome State Fault Refusal := applyRule (selectRule t s) t s

/-- A packet whose frame header has been read in the running call, its payload at the head of rxq and delivered whole in the next turn:
the state in which the next micro-step runs it (log 11). -/
def State.placePacket (cmd : Byte) (len : Half) (chk : Byte) (payload : List Byte) (s : State) : State :=
  { s with fsm := .rdPay, hdrCmd := cmd, hdrLen := len, hdrChk := chk, rxq := payload ++ s.rxq,
           turns := Turn.quiet :: s.turns, inCall := true }

/-- Bytes that no packet begins with, at the head of rxq in IDLE: the next micro-step discards the first of them as noise (log 11). -/
def State.placeNoise (bytes : List Byte) (s : State) : State :=
  { s with fsm := .idle, rxq := bytes ++ s.rxq, turns := Turn.quiet :: s.turns, inCall := true }

/-- The state whose next micro-step runs the bytes of a table word (log 11): its header in the header registers, its payload at the
head of rxq. -/
def placeWord (nbits w : Nat) (s : State) : State :=
  match tableBytes nbits w with
  | b :: cmd :: lo :: hi :: chk :: payload =>
    if b = s.cfg.magic then s.placePacket cmd (assembleLen lo hi) chk payload
    else s.placeNoise (b :: cmd :: lo :: hi :: chk :: payload)
  | bytes => s.placeNoise bytes

end Sys2Proof.Machine
end

