-- ==== Sys2Proof/Machine/Step.lean ====
section
/-! DEFINITION. One step of the machine: one micro-step (00_scope.md R15, 40_framer.md R100, log 1), before which the transport's
turn is taken. -/

namespace Sys2Proof.Machine

/-- The transport's turn, then one micro-step (40_framer.md R100). Outside a call the step starts the host's next one (log 2). -/
def step (s : State) : Host.Outcome State Fault Refusal := microStep s.turn s.openMicro

/-- The state whose next step runs the packet with these bits (log 11). -/
def State.withFetchWord (s : State) (nbits w : Nat) : State := placeWord nbits w s

end Sys2Proof.Machine
end

