-- ==== Sys2Proof/Machine/Call.lean ====
section
/-! DEFINITION. The host's call (40_framer.md R100): micro-steps until one of them stops. -/

namespace Sys2Proof.Machine

/-- The Outcome of the last stop. -/
def State.lastOutcome (s : State) : Option CallOutcome := s.stops.getLast?.map Stop.outcome

/-- At most n micro-steps of a call, to its stop: the Outcome it returns, none while it still runs (40_framer.md R100). -/
def runCall : Nat → State → Host.Outcome (Option CallOutcome × State) Fault Refusal
  | 0, s => .next (none, s)
  | n + 1, s =>
    match step s with
    | .next t => if t.inCall then runCall n t else .next (t.lastOutcome, t)
    | .fault f => .fault f
    | .refused r => .refused r

/-- `process_once()` (40_framer.md R100, 60_exceptions.md R184), followed for at most n micro-steps. A call started while one runs is
refused (70_reset_and_hazards.md R205, log 14). -/
def processOnce (n : Nat) (s : State) : Host.Outcome (Option CallOutcome × State) Fault Refusal :=
  if s.inCall then .refused .overlappingCall else runCall n s

/-- The bytes the listed turns bring. -/
def arriving (ts : List Turn) : Nat := (ts.map (fun t => t.arrive.length)).sum

/-- The number of micro-steps within which a call ends (40_framer.md R119): the bytes in rxq, those still to arrive, and one. -/
def callBound (s : State) : Nat := s.rxq.length + arriving s.turns + 1

end Sys2Proof.Machine
end

