-- ==== Sys2Proof/Safety.lean ====
section
/-! DEFINITION. What a sound state of CSF is, and the words the claims use: the invariant, runs of the machine, the bytes still to
come, and the relations between states that differ in one thing only. -/

namespace Sys2Proof.Machine

/-- The invariant of the machine. -/
structure Inv (s : State) : Prop where
  /-- rxbuf keeps its canonical form. -/
  bufSorted : Memory.wf s.rxbuf
  /-- Every byte of rxbuf lies within 0..CAPACITY-1 (20_memory.md R69). -/
  bufInside : ∀ c ∈ s.rxbuf, c.1 < s.cfg.capacity
  /-- DRAIN is reached only under Drain (10_state.md R32), with bytes left to discard (40_framer.md R114). -/
  drainActive : s.fsm = .drain → s.cfg.policy = .drain ∧ s.drainRem ≠ 0
  /-- Outside DRAIN no byte is left to discard. -/
  drainRest : s.fsm ≠ .drain → s.drainRem = 0
  /-- Without the stall option there is no age (10_state.md R40). -/
  ageOff : s.cfg.stallLimit = none → s.stallAge = 0
  /-- stall_age is 0..L+1 (10_state.md R30), and L+1 only once fsm is back in IDLE (40_framer.md R120). -/
  ageBound : ∀ l, s.cfg.stallLimit = some l → s.stallAge ≤ l + 1 ∧ (s.fsm ≠ .idle → s.stallAge ≤ l)
  /-- pay_cnt is written with 0 alone (10_state.md R37). -/
  payCntZero : s.payCnt = 0
  /-- Between calls RD_PAY waits only for a payload that fits (40_framer.md R109 to R111). -/
  waiting : s.fsm = .rdPay → s.inCall = false → 1 ≤ s.hdrLen.toNat ∧ s.hdrLen.toNat ≤ s.cfg.capacity

/-- k micro-steps of the machine. -/
def run (k : Nat) (s : State) : Host.Outcome State Fault Refusal := Sys2Proof.core.run k s

/-- All bytes that the listed turns bring, in order. -/
def arrivals (ts : List Turn) : List Byte := (ts.map Turn.arrive).flatten

/-- Every listed turn delivers all that is asked for (40_framer.md R121 premise (a)). -/
def allDeliver (ts : List Turn) : Prop := ∀ t ∈ ts, t.short = none

/-- The stops that are no Pending, in order: the non-Pending Outcomes of a session (40_framer.md R121), each with its recorded info. -/
def State.answers (s : State) : List Stop := s.stops.filter (fun e => decide (e ≠ .pending))

/-- The host has called until a call returned Pending after the last byte arrived (40_framer.md R121 premise (c)): after k ≥ 1
micro-steps the transport has no more to bring, no call runs, and the last stop is a Pending. -/
def Settled (k : Nat) (s t : State) : Prop :=
  1 ≤ k ∧ run k s = .next t ∧ arrivals t.turns = [] ∧ t.inCall = false ∧ t.stops.getLast? = some .pending

/-- A state in which the coming micro-step starves: fewer bytes are available than the framer state needs (40_framer.md R102, R106,
R111, R114). -/
def Starved (s : State) : Prop :=
  (s.fsm = .idle ∧ s.rxAvail = 0) ∨ (s.fsm = .rdHdr ∧ s.rxAvail < 4) ∨
    (s.fsm = .rdPay ∧ 1 ≤ s.hdrLen.toNat ∧ s.hdrLen.toNat ≤ s.cfg.capacity ∧ s.rxAvail < s.hdrLen.toNat) ∨
    (s.fsm = .drain ∧ s.rxAvail = 0)

/-- Nothing more arrives, and every read delivers what is asked for. -/
def State.isQuiet (s : State) : Prop := s.turns = [] ∧ s.tail = .quiet

/-- Two states that differ at most in what no rule reads before writing it (10_state.md R48): the contents of rxbuf (its bytes
written and the free ones), and outside RD_PAY the header registers. -/
structure SameButUnread (s t : State) : Prop where
  header : s.fsm = .rdPay → s.hdrCmd = t.hdrCmd ∧ s.hdrLen = t.hdrLen ∧ s.hdrChk = t.hdrChk
  rest : { s with rxbuf := t.rxbuf, rxDraw := t.rxDraw, hdrCmd := t.hdrCmd, hdrLen := t.hdrLen, hdrChk := t.hdrChk } = t

end Sys2Proof.Machine
end

