-- ==== Sys2Proof/Certificates/Slice0/Obligations.lean ====
section
/-! DEFINITION. The statements about CSF, one definition each; OBLIGATIONS.json says which rule of spec/ each formalises. In a
statement about a micro-step, `s.openMicro` is the state after the transport's arrivals (40_framer.md R100). -/

open Sys2Proof Sys2Proof.Machine

/-! ### Reset and the host's interface -/

/-- R48, R200: a reset puts every register at its value and leaves the transport's queues alone. Every byte of rxbuf can be read after it,
and nothing fixes what it holds: the spec says any value, and the model draws a fresh free value (log 8). State.reset holds the same
registers and the default build. -/
def Obligations.ResetSetsEveryRegister : Prop :=
  (∀ s : State, s.resetBlock.fsm = .idle ∧ s.resetBlock.debugMode = false ∧ s.resetBlock.hdrCmd = 0x00 ∧
    s.resetBlock.hdrLen = 0x0000 ∧ s.resetBlock.hdrChk = 0x00 ∧ s.resetBlock.payCnt = 0x0000 ∧
    s.resetBlock.drainRem = 0x0000 ∧ s.resetBlock.stallAge = 0 ∧
    (∀ i n, i + n ≤ s.cfg.capacity → ∃ bs, s.resetBlock.memRead i n = .ok bs ∧ bs.length = n) ∧
    s.resetBlock.rxbuf = [] ∧ s.resetBlock.rxDraw = s.rxDraw + 1 ∧
    s.resetBlock.rxq = s.rxq ∧ s.resetBlock.txq = s.txq ∧ s.resetBlock.cfg = s.cfg) ∧
  { State.reset.resetBlock with rxDraw := State.reset.rxDraw } = State.reset ∧
  State.reset.cfg = ⟨0xAA, 0x06, 1024, .drop, none, .commandCode, none⟩

/-- R49: is_debug_mode() returns debug_mode between calls; it is a read of the state and gives none back. -/
def Obligations.IsDebugModeReadsTheFlagBetweenCalls : Prop :=
  ∀ s : State, s.inCall = false → isDebugMode s = .ok s.debugMode

/-- R205, R49: what the spec gives no meaning inside a call, the model refuses by name (the model's choice, log 14): a second call and
a read of debug_mode. Between calls a call runs. -/
def Obligations.HostMovesInsideACallAreRefused : Prop :=
  ∀ (n : Nat) (s : State), (s.inCall = true → processOnce n s = .refused .overlappingCall ∧
      isDebugMode s = .error .debugModeReadInCall) ∧
    (s.inCall = false → processOnce n s = runCall n s)

/-- R94: the three fields of an Outcome; tag 11 is never produced, and two Outcomes with the same bits are the same. -/
def Obligations.OutcomeBits : Prop :=
  CallOutcome.pending.word = ⟨0, 0x00, 0⟩ ∧ (∀ r, (CallOutcome.completed r).word = ⟨1, r, 0⟩) ∧
  (CallOutcome.error .frameTooLarge).word = ⟨2, 0x00, 1⟩ ∧ (CallOutcome.error .transportReadFailure).word = ⟨2, 0x00, 2⟩ ∧
  (CallOutcome.error .transportStall).word = ⟨2, 0x00, 3⟩ ∧ (∀ o : CallOutcome, o.word.tag ≠ 3) ∧
  (∀ o o' : CallOutcome, o.word = o'.word → o = o')

/-! ### Encoding -/

/-- R82: the length is its low byte plus 256 times its high byte, unsigned; R80: its two bytes are what is sent. -/
def Obligations.LengthIsLowByteFirst : Prop :=
  (∀ lo hi : Byte, (assembleLen lo hi).toNat = lo.toNat + 256 * hi.toNat) ∧ assembleLen 0x01 0x04 = 1025 ∧
  (∀ len : Half, assembleLen (lenLow len) (lenHigh len) = len)

/-- R89: the acknowledgement frame is itself a packet, ACK of length 0. -/
def Obligations.AckFrameIsAPacket : Prop :=
  ackFrame Params.default = [0xAA, 0x06, 0x00, 0x00, 0x00] ∧
  (∀ p : Params, ackFrame p = [p.magic, p.ackCmd, 0x00, 0x00, 0x00]) ∧
  decode Params.default (ackFrame Params.default) = .ok (.ack 0 0x00 [], []) ∧
  (Instr.ack 0 0x00 []).word Params.default = 0x00000006AA#40

/-- R80, R87: words written out from the packet format, one per row, decode to their instructions. -/
def Obligations.WordsOfTheSpecDecode : Prop :=
  decode Params.default [0xAA, 0x01, 0x02, 0x00, 0x5A, 0xDE, 0xAD] = .ok (.act1 2 0x5A [0xDE, 0xAD], []) ∧
  decode Params.default [0xAA, 0x02, 0x03, 0x00, 0x00, 0x01, 0x02, 0x03] = .ok (.act2 3 0x00 [0x01, 0x02, 0x03], []) ∧
  decode Params.default [0xAA, 0x03, 0x01, 0x00, 0x00, 0xFF, 0x11] = .ok (.act3 1 0x00 [0xFF], [0x11]) ∧
  decode Params.default [0xAA, 0x04, 0x00, 0x00, 0x00] = .ok (.dbgOn 0 0x00 [], []) ∧
  decode Params.default [0xAA, 0x05, 0x00, 0x00, 0x00] = .ok (.dbgOff 0 0x00 [], []) ∧
  decode Params.default [0xAA, 0x06, 0x00, 0x00, 0x00] = .ok (.ack 0 0x00 [], []) ∧
  decode Params.default [0xAA, 0xAA, 0x00, 0x00, 0x00] = .ok (.unknown 0xAA 0 0x00 [], [])

/-- R88: of a whole frame header only a length above CAPACITY is illegal; every command has a row. -/
def Obligations.OnlyAnOversizedLengthIsIllegal : Prop :=
  ∀ (p : Params) (cmd lo hi chk : Byte) (rest : List Byte),
    (p.capacity < (assembleLen lo hi).toNat →
      decode p (p.magic :: cmd :: lo :: hi :: chk :: rest) = .error (.frameTooLarge (assembleLen lo hi).toNat)) ∧
    ((assembleLen lo hi).toNat ≤ p.capacity → (assembleLen lo hi).toNat ≤ rest.length →
      decode p (p.magic :: cmd :: lo :: hi :: chk :: rest) =
        .ok (lookup cmd (assembleLen lo hi) chk (rest.take (assembleLen lo hi).toNat),
          rest.drop (assembleLen lo hi).toNat))

/-- R80 to R90: every well-formed packet of every build decodes to itself, whatever bytes follow. -/
def Obligations.DecodeOfEncodeIsThePacket : Prop :=
  ∀ (p : Params) (i : Instr) (rest : List Byte), i.wf p = true → decode p (encode p i ++ rest) = .ok (i, rest)

/-- R80 to R90: what decodes is well formed and is exactly the bytes of that packet. -/
def Obligations.WhatDecodesIsThePacketsBytes : Prop :=
  ∀ (p : Params) (bytes : List Byte) (i : Instr) (rest : List Byte), decode p bytes = .ok (i, rest) →
    i.wf p = true ∧ bytes = encode p i ++ rest

/-- R141, R87: the row the dispatcher applies is the first row of the opcode table that the header word matches. -/
def Obligations.LookupIsTheFirstMatchingRow : Prop :=
  ∀ (cmd : Byte) (len : Half) (chk : Byte) (payload : List Byte),
    tableMnemonic (headerWord 0xAA cmd (lenLow len) (lenHigh len) chk) = some (lookup cmd len chk payload).mnemonic

/-! ### rxbuf -/

/-- R19, R39, R69: inside 0..CAPACITY-1 MemRead answers the bytes of rxbuf, in every state (right after reset too) and without changing
it; MemWrite writes its bytes, which MemRead then gives back, and keeps every other byte. The two clauses about an access that leaves
0..CAPACITY-1 are the model's choice (DESIGN CHOICE, log 8): R19 gives such an access no meaning, and both answer rxbufOutOfBounds. -/
def Obligations.EveryAccessInsideTheBufferAnswers : Prop :=
  ∀ (s : State) (i n : Nat) (v : List Byte),
    (i + n ≤ s.cfg.capacity →
      ∃ bs, s.memRead i n = .ok bs ∧ bs.length = n ∧ ∀ k, k < n → bs[k]? = some (s.rxByte (i + k))) ∧
    (s.cfg.capacity < i + n → s.memRead i n = .error (.rxbufOutOfBounds i n)) ∧
    (i + v.length ≤ s.cfg.capacity → ∃ t, s.memWrite i v = .ok t ∧ t.memRead i v.length = .ok v ∧
      (∀ a, a < i ∨ i + v.length ≤ a → t.rxByte a = s.rxByte a) ∧ { t with rxbuf := s.rxbuf } = s) ∧
    (s.cfg.capacity < i + v.length → s.memWrite i v = .error (.rxbufOutOfBounds i v.length))

/-! ### The instructions -/

/-- R142: ACT1 gives its action's result in debug mode and 0x00 outside it, and writes nothing. -/
def Obligations.Act1Completes : Prop :=
  ∀ (len : Half) (chk : Byte) (payload : List Byte) (s : State),
    exec (.act1 len chk payload) s = .next { s with
      inCall := false
      stops := s.stops ++ [.completed (if s.debugMode = true then actionResult s.cfg.action 0x01 len chk payload else 0x00)] } ∧
    actionResult .commandCode 0x01 len chk payload = 0x01 ∧
    (Instr.act1 len chk payload).word Params.default &&& 0xFFFF#40 = 0x01AA#40

/-- R143: ACT2 gives its action's result in debug mode and 0x00 outside it, and writes nothing. -/
def Obligations.Act2Completes : Prop :=
  ∀ (len : Half) (chk : Byte) (payload : List Byte) (s : State),
    exec (.act2 len chk payload) s = .next { s with
      inCall := false
      stops := s.stops ++ [.completed (if s.debugMode = true then actionResult s.cfg.action 0x02 len chk payload else 0x00)] } ∧
    actionResult .commandCode 0x02 len chk payload = 0x02 ∧
    (Instr.act2 len chk payload).word Params.default &&& 0xFFFF#40 = 0x02AA#40

/-- R144: ACT3 gives its action's result in debug mode and 0x00 outside it, and writes nothing. -/
def Obligations.Act3Completes : Prop :=
  ∀ (len : Half) (chk : Byte) (payload : List Byte) (s : State),
    exec (.act3 len chk payload) s = .next { s with
      inCall := false
      stops := s.stops ++ [.completed (if s.debugMode = true then actionResult s.cfg.action 0x03 len chk payload else 0x00)] } ∧
    actionResult .commandCode 0x03 len chk payload = 0x03 ∧
    (Instr.act3 len chk payload).word Params.default &&& 0xFFFF#40 = 0x03AA#40

/-- R145: DBG_ON sets debug_mode, appends the acknowledgement frame and gives 0x04, in either mode and for any length, checksum and
payload. -/
def Obligations.DbgOnCompletes : Prop :=
  ∀ (len : Half) (chk : Byte) (payload : List Byte) (s : State),
    exec (.dbgOn len chk payload) s = .next { s with
      debugMode := true
      txq := s.txq ++ [s.cfg.magic, s.cfg.ackCmd, 0x00, 0x00, 0x00]
      inCall := false
      stops := s.stops ++ [.completed 0x04] } ∧
    (Instr.dbgOn len chk payload).word Params.default &&& 0xFFFF#40 = 0x04AA#40

/-- R146: DBG_OFF clears debug_mode, appends the acknowledgement frame and gives 0x05, in either mode and for any length, checksum and
payload. -/
def Obligations.DbgOffCompletes : Prop :=
  ∀ (len : Half) (chk : Byte) (payload : List Byte) (s : State),
    exec (.dbgOff len chk payload) s = .next { s with
      debugMode := false
      txq := s.txq ++ [s.cfg.magic, s.cfg.ackCmd, 0x00, 0x00, 0x00]
      inCall := false
      stops := s.stops ++ [.completed 0x05] } ∧
    (Instr.dbgOff len chk payload).word Params.default &&& 0xFFFF#40 = 0x05AA#40

/-- R147: a received ACK gives 0x00 and has no effect. -/
def Obligations.AckCompletes : Prop :=
  ∀ (len : Half) (chk : Byte) (payload : List Byte) (s : State),
    exec (.ack len chk payload) s = .next { s with inCall := false, stops := s.stops ++ [.completed 0x00] } ∧
    (Instr.ack len chk payload).word Params.default &&& 0xFFFF#40 = 0x06AA#40

/-- R148: an unlisted command gives 0x00 and has no effect. -/
def Obligations.UnknownCompletes : Prop :=
  ∀ (cmd : Byte) (len : Half) (chk : Byte) (payload : List Byte) (s : State),
    exec (.unknown cmd len chk payload) s = .next { s with inCall := false, stops := s.stops ++ [.completed 0x00] } ∧
    (Instr.unknown cmd len chk payload).word Params.default &&& 0xFF#40 = 0xAA#40

/-- R140: the frame of every dispatch. It writes at most debug_mode and txq, and those for 0x04 and 0x05 alone; every register and
every byte of rxbuf stays. -/
def Obligations.DispatchFrame : Prop :=
  ∀ (i : Instr) (s t : State), exec i s = .next t →
    t.cfg = s.cfg ∧ t.fsm = s.fsm ∧ t.hdrCmd = s.hdrCmd ∧ t.hdrLen = s.hdrLen ∧ t.hdrChk = s.hdrChk ∧ t.payCnt = s.payCnt ∧
    t.drainRem = s.drainRem ∧ t.stallAge = s.stallAge ∧ t.rxq = s.rxq ∧ t.turns = s.turns ∧ t.tail = s.tail ∧
    (∀ a, t.rxByte a = s.rxByte a) ∧ t.rxbuf = s.rxbuf ∧ t.rxDraw = s.rxDraw ∧ t.inCall = false ∧
    (∃ r, t.stops = s.stops ++ [.completed r]) ∧
    (i.cmd ≠ 0x04 → i.cmd ≠ 0x05 → t.debugMode = s.debugMode ∧ t.txq = s.txq) ∧
    (i.cmdUnlisted = true → i.cmd = 0x04 ∨ i.cmd = 0x05 → t.txq = s.txq ++ ackFrame s.cfg)

/-- R149, R153: every command has a result in either mode. -/
def Obligations.EveryCommandHasAResult : Prop :=
  ∀ (cmd : Byte) (len : Half) (chk : Byte) (payload : List Byte) (s : State), ∃ t,
    dispatch cmd len chk payload s = .next t ∧ t.stops = s.stops ++ [.completed
      (if cmd = 0x01 ∨ cmd = 0x02 ∨ cmd = 0x03 then
        (if s.debugMode = true then actionResult s.cfg.action cmd len chk payload else 0x00)
      else if cmd = 0x04 then 0x04 else if cmd = 0x05 then 0x05 else 0x00)]

/-! ### The micro-steps of the framer -/

/-- R102: IDLE with nothing to read stops Pending and changes nothing else. -/
def Obligations.IdleEmptyPends : Prop :=
  ∀ s : State, s.fsm = .idle → s.openMicro.rxAvail = 0 →
    step s = .next { s.openMicro with inCall := false, stops := s.stops ++ [.pending] }

/-- R103: in IDLE a byte that is not MAGIC is dropped, nothing else changes, and the call goes on. -/
def Obligations.IdleNoiseIsDropped : Prop :=
  ∀ (s : State) (b : Byte) (rest : List Byte), s.fsm = .idle → 1 ≤ s.openMicro.rxAvail → delivered s.turn 1 = 1 →
    s.openMicro.rxq = b :: rest → b ≠ s.cfg.magic → step s = .next { s.openMicro with rxq := rest }

/-- R104: in IDLE a MAGIC byte opens a packet. -/
def Obligations.IdleMagicOpensAPacket : Prop :=
  ∀ (s : State) (rest : List Byte), s.fsm = .idle → 1 ≤ s.openMicro.rxAvail → delivered s.turn 1 = 1 →
    s.openMicro.rxq = s.cfg.magic :: rest →
    step s = .next { s.openMicro with
      fsm := .rdHdr
      payCnt := 0
      stallAge := if s.cfg.stallLimit = none then s.stallAge else 0
      rxq := rest }

/-- R105: a read in IDLE that delivers nothing is TransportReadFailure, and fsm stays IDLE. -/
def Obligations.IdleShortReadFails : Prop :=
  ∀ s : State, s.fsm = .idle → 1 ≤ s.openMicro.rxAvail → delivered s.turn 1 = 0 →
    step s = .next { s.openMicro with
      inCall := false
      stops := s.stops ++ [.error (.transportReadFailure 1 0)] }

/-- R106, R111, R114: with too few bytes the micro-step is a PendingStop, and consumes nothing. -/
def Obligations.StarvationConsumesNothing : Prop :=
  ∀ s : State, Starved s.openMicro →
    step s = .next s.openMicro.pendingStop ∧ s.openMicro.pendingStop.rxq = s.openMicro.rxq

/-- R117: PendingStop, without and with the stall option. -/
def Obligations.PendingStopAgesThePacket : Prop :=
  ∀ s : State,
    (s.cfg.stallLimit = none ∨ s.fsm = .idle →
      s.pendingStop = { s with inCall := false, stops := s.stops ++ [.pending] }) ∧
    (∀ l, s.cfg.stallLimit = some l → s.fsm ≠ .idle → s.stallAge + 1 ≤ l →
      s.pendingStop = { s with stallAge := s.stallAge + 1, inCall := false, stops := s.stops ++ [.pending] }) ∧
    (∀ l, s.cfg.stallLimit = some l → s.fsm ≠ .idle → l < s.stallAge + 1 →
      s.pendingStop = { s with
        stallAge := s.stallAge + 1
        fsm := .idle
        drainRem := if s.cfg.policy = .drain then 0 else s.drainRem
        inCall := false
        stops := s.stops ++ [.error (.transportStall (s.stallAge + 1))] })

/-- R107: the four header bytes are read together and assembled. -/
def Obligations.HeaderIsAssembled : Prop :=
  ∀ (s : State) (b0 b1 b2 b3 : Byte) (rest : List Byte), s.fsm = .rdHdr → 4 ≤ s.openMicro.rxAvail →
    delivered s.turn 4 = 4 → s.openMicro.rxq = b0 :: b1 :: b2 :: b3 :: rest →
    step s = .next { s.openMicro with
      fsm := .rdPay
      hdrCmd := b0
      hdrLen := b1.setWidth 16 ||| (b2.setWidth 16 <<< 8)
      hdrChk := b3
      rxq := rest }

/-- R108: a short header read loses the bytes delivered, writes no header register, and is TransportReadFailure. -/
def Obligations.HeaderShortReadFails : Prop :=
  ∀ s : State, s.fsm = .rdHdr → 4 ≤ s.openMicro.rxAvail → delivered s.turn 4 < 4 →
    step s = .next { s.openMicro with
      fsm := .idle
      rxq := s.openMicro.rxq.drop (delivered s.turn 4)
      inCall := false
      stops := s.stops ++ [.error (.transportReadFailure 4 (delivered s.turn 4))] }

/-- R109: a packet of length 0 is dispatched at once, from IDLE, with no payload. -/
def Obligations.ZeroLengthPacketIsDispatched : Prop :=
  ∀ s : State, s.fsm = .rdPay → s.hdrLen = 0 →
    step s = exec (lookup s.hdrCmd 0 s.hdrChk []) { s.openMicro with fsm := .idle }

/-- R110: a length above CAPACITY is FrameTooLarge before any byte is read, whatever is available. -/
def Obligations.OversizedPacketIsRejected : Prop :=
  ∀ s : State, s.fsm = .rdPay → s.cfg.capacity < s.hdrLen.toNat →
    step s = .next { s.openMicro with
      fsm := if s.cfg.policy = .drop then .idle else .drain
      drainRem := if s.cfg.policy = .drop then s.drainRem else s.hdrLen
      inCall := false
      stops := s.stops ++ [.error (.frameTooLarge s.hdrLen.toNat)] }

/-- R112: a payload that is there is read whole into rxbuf from index 0, and the packet is dispatched from IDLE; rxbuf beyond it
keeps its bytes. -/
def Obligations.PayloadIsBufferedAndDispatched : Prop :=
  ∀ s : State, s.fsm = .rdPay → 1 ≤ s.hdrLen.toNat → s.hdrLen.toNat ≤ s.cfg.capacity →
    s.hdrLen.toNat ≤ s.openMicro.rxAvail → delivered s.turn s.hdrLen.toNat = s.hdrLen.toNat →
    ∃ buf : Memory,
      step s = exec (lookup s.hdrCmd s.hdrLen s.hdrChk (s.openMicro.rxq.take s.hdrLen.toNat))
        { s.openMicro with fsm := .idle, rxbuf := buf, rxq := s.openMicro.rxq.drop s.hdrLen.toNat } ∧
      (∀ a, a < s.hdrLen.toNat → some ({ s with rxbuf := buf }.rxByte a) = s.openMicro.rxq[a]?) ∧
      (∀ a, s.hdrLen.toNat ≤ a → { s with rxbuf := buf }.rxByte a = s.rxByte a)

/-- R113: a short payload read stores the bytes delivered, calls no dispatcher, and is TransportReadFailure. -/
def Obligations.PayloadShortReadFails : Prop :=
  ∀ s : State, s.fsm = .rdPay → 1 ≤ s.hdrLen.toNat → s.hdrLen.toNat ≤ s.cfg.capacity →
    s.hdrLen.toNat ≤ s.openMicro.rxAvail → delivered s.turn s.hdrLen.toNat < s.hdrLen.toNat →
    ∃ buf : Memory,
      step s = .next { s.openMicro with
        fsm := .idle
        rxbuf := buf
        rxq := s.openMicro.rxq.drop (delivered s.turn s.hdrLen.toNat)
        inCall := false
        stops := s.stops ++ [.error (.transportReadFailure s.hdrLen.toNat (delivered s.turn s.hdrLen.toNat))] } ∧
      (∀ a, a < delivered s.turn s.hdrLen.toNat → some ({ s with rxbuf := buf }.rxByte a) = s.openMicro.rxq[a]?) ∧
      (∀ a, delivered s.turn s.hdrLen.toNat ≤ a → { s with rxbuf := buf }.rxByte a = s.rxByte a)

/-- R115: DRAIN discards what is available, never past drain_rem, and leaves for IDLE when nothing is left to discard. -/
def Obligations.DrainDiscardsWhatIsAvailable : Prop :=
  ∀ (s : State) (n : Nat), s.fsm = .drain → 1 ≤ s.drainRem.toNat → 1 ≤ s.openMicro.rxAvail →
    n = min s.openMicro.rxAvail s.drainRem.toNat → delivered s.turn n = n →
    ∃ t, step s = .next t ∧ t.drainRem.toNat = s.drainRem.toNat - n ∧
      t = { s.openMicro with
        fsm := if t.drainRem = 0 then .idle else .drain
        drainRem := t.drainRem
        rxq := s.openMicro.rxq.drop n }

/-- R116: a short read in DRAIN ends the drain and is TransportReadFailure. -/
def Obligations.DrainShortReadFails : Prop :=
  ∀ (s : State) (n : Nat), s.fsm = .drain → 1 ≤ s.openMicro.rxAvail →
    n = min s.openMicro.rxAvail s.drainRem.toNat → delivered s.turn n < n →
    step s = .next { s.openMicro with
      fsm := .idle
      drainRem := 0
      rxq := s.openMicro.rxq.drop (delivered s.turn n)
      inCall := false
      stops := s.stops ++ [.error (.transportReadFailure n (delivered s.turn n))] }

/-! ### A step runs the decoded instruction -/

/-- R125, R112, R109: when the header registers and the bytes of rxq decode to a packet whose payload the transport reports and
delivers, the micro-step is exec of that packet, after fsm has gone to IDLE and the payload to rxbuf. -/
def Obligations.StepRunsTheDecodedPacket : Prop :=
  ∀ (s : State) (i : Instr) (rest : List Byte), s.fsm = .rdPay →
    decode s.cfg (s.cfg.magic :: s.hdrCmd :: lenLow s.hdrLen :: lenHigh s.hdrLen :: s.hdrChk :: s.openMicro.rxq) =
      .ok (i, rest) →
    s.hdrLen.toNat ≤ s.openMicro.rxAvail → delivered s.turn s.hdrLen.toNat = s.hdrLen.toNat →
    step s = exec i { s.openMicro with
      fsm := .idle
      rxbuf := s.rxbuf.storeAll 0 i.payload
      rxq := rest }

/-- R100, R104, R107, R125: a well-formed packet at the head of rxq in IDLE, with a transport that reports and delivers all, runs in
three micro-steps: MAGIC, the header, the payload and its meaning. -/
def Obligations.PacketOnTheWireRunsInThreeMicroSteps : Prop :=
  ∀ (s : State) (i : Instr) (rest : List Byte), s.fsm = .idle → s.isQuiet → s.cfg.rxDepth = none → i.wf s.cfg = true →
    s.rxq = encode s.cfg i ++ rest →
    run 3 s = exec i { s with
      fsm := .idle
      hdrCmd := i.cmd
      hdrLen := i.len
      hdrChk := i.chk
      payCnt := 0
      stallAge := if s.cfg.stallLimit = none then s.stallAge else 0
      rxbuf := s.rxbuf.storeAll 0 i.payload
      rxq := rest
      inCall := true }

/-! ### The whole machine -/

/-- R101, R149, R188: from every state a micro-step answers a next state: CSF never stops. -/
def Obligations.EveryMicroStepAnswersNext : Prop := ∀ s : State, ∃ t, step s = .next t

/-- R30, R32, R37, R69, R120: every step keeps the invariant. -/
def Obligations.StepKeepsInvariant : Prop := ∀ s t : State, Inv s → step s = .next t → Inv t

/-- The reset state meets the invariant, and so does any state that meets it after a reset of the block. -/
def Obligations.ResetMeetsInvariant : Prop := Inv State.reset ∧ ∀ s : State, Inv s.resetBlock

/-- R43, R73: no step writes the build, and a step consumes bytes of rxq from its front only. -/
def Obligations.BytesAreConsumedInOrder : Prop :=
  ∀ s t : State, step s = .next t →
    t.cfg = s.cfg ∧ ∃ k, k ≤ s.openMicro.rxAvail ∧ t.rxq = (s.rxq ++ s.turn.arrive).drop k

/-- R119: a micro-step stops the call or consumes at least one byte. -/
def Obligations.MicroStepStopsOrConsumes : Prop :=
  ∀ s t : State, Inv s → step s = .next t → t.inCall = false ∨ t.rxq.length < (s.rxq ++ s.turn.arrive).length

/-- R119: a call ends within as many micro-steps as there are bytes in rxq and bytes to arrive, and one more. -/
def Obligations.CallEndsWithinItsBound : Prop :=
  ∀ s : State, Inv s → s.tail = .quiet → ∃ o t, runCall (callBound s) s = .next (some o, t) ∧ t.inCall = false

/-- R118: a call that ends has stopped once, with the Outcome it returns; one that has not ended has not stopped. -/
def Obligations.CallStopsOnce : Prop :=
  ∀ (n : Nat) (s t : State) (o : Option CallOutcome), runCall n s = .next (o, t) →
    (o = none ∧ t.stops = s.stops) ∨ (∃ e, t.stops = s.stops ++ [e] ∧ o = some e.outcome ∧ t.inCall = false)

/-- R178: an error leaves debug_mode, txq and the header registers as they were, and fsm in IDLE, or in DRAIN for an oversized
packet under Drain. -/
def Obligations.ErrorLeavesTheRest : Prop :=
  ∀ (s t : State) (e : ErrInfo), step s = .next t → t.stops = s.stops ++ [.error e] →
    t.debugMode = s.debugMode ∧ t.txq = s.txq ∧ t.hdrCmd = s.hdrCmd ∧ t.hdrLen = s.hdrLen ∧ t.hdrChk = s.hdrChk ∧
    (t.fsm = .idle ∨ (t.fsm = .drain ∧ s.cfg.policy = .drain ∧ e.kind = .frameTooLarge)) ∧ t.inCall = false

/-- R202: debug_mode changes only in a micro-step that dispatches 0x04 or 0x05, to the value that command gives. -/
def Obligations.OnlyTogglesWriteDebugMode : Prop :=
  ∀ s t : State, step s = .next t → t.debugMode ≠ s.debugMode →
    s.fsm = .rdPay ∧ ((s.hdrCmd = 0x04 ∧ t.debugMode = true ∧ t.stops = s.stops ++ [.completed 0x04]) ∨
      (s.hdrCmd = 0x05 ∧ t.debugMode = false ∧ t.stops = s.stops ++ [.completed 0x05]))

/-- R151, R74: a micro-step writes nothing to the transport, or one whole acknowledgement frame as it completes 0x04 or 0x05. -/
def Obligations.OnlyAckFramesAreWritten : Prop :=
  ∀ s t : State, step s = .next t →
    (t.txq = s.txq ∨ (t.txq = s.txq ++ ackFrame s.cfg ∧ s.fsm = .rdPay ∧ (s.hdrCmd = 0x04 ∨ s.hdrCmd = 0x05) ∧
      ∃ r, t.stops = s.stops ++ [.completed r])) ∧
    (s.hdrCmd = 0x04 ∨ s.hdrCmd = 0x05 → (∃ r, t.stops = s.stops ++ [.completed r]) → t.txq = s.txq ++ ackFrame s.cfg)

/-- R69, R39: a micro-step draws no byte of rxbuf anew and writes rxbuf only below hdr_len, only for a length of 1 to
CAPACITY in RD_PAY, and so never outside it. -/
def Obligations.BufferIsWrittenInBounds : Prop :=
  ∀ (s t : State) (a : Nat), step s = .next t → t.rxDraw = s.rxDraw ∧
    (t.rxByte a ≠ s.rxByte a ∨ Memory.load t.rxbuf a ≠ Memory.load s.rxbuf a →
      s.fsm = .rdPay ∧ s.hdrLen.toNat ≤ s.cfg.capacity ∧ a < s.hdrLen.toNat)

/-- R36, R64: the header registers change only when all four header bytes are read, in RD_HDR, and then together. -/
def Obligations.HeaderIsWrittenWhole : Prop :=
  ∀ s t : State, step s = .next t → (t.hdrCmd, t.hdrLen, t.hdrChk) ≠ (s.hdrCmd, s.hdrLen, s.hdrChk) →
    s.fsm = .rdHdr ∧ t.fsm = .rdPay ∧ ∃ b0 b1 b2 b3, s.openMicro.rxq = b0 :: b1 :: b2 :: b3 :: t.rxq ∧
      t.hdrCmd = b0 ∧ t.hdrLen = assembleLen b1 b2 ∧ t.hdrChk = b3

/-- R122, R152: at the default ACTION_RESULT the checksum register changes nothing a micro-step does. -/
def Obligations.ChecksumIsNotChecked : Prop :=
  ∀ (s t : State) (c : Byte), s.cfg.action = .commandCode → step s = .next t →
    ∃ t', step { s with hdrChk := c } = .next t' ∧ { t' with hdrChk := t.hdrChk } = t

/-- R48, R39: neither the contents of rxbuf nor, outside RD_PAY, the header registers can be observed: two states that differ in them
alone go on differing in them alone, with the same stops and the same bytes written. -/
def Obligations.UnreadRegistersAreUnobservable : Prop :=
  ∀ s s' t : State, SameButUnread s s' → step s = .next t → ∃ t', step s' = .next t' ∧ SameButUnread t t'

/-- R103: noise before a packet is consumed byte by byte in one call, and nothing else changes. -/
def Obligations.NoiseIsDiscardedSilently : Prop :=
  ∀ (s : State) (b : Byte) (noise rest : List Byte), s.fsm = .idle → s.isQuiet → s.cfg.rxDepth = none →
    (∀ x ∈ b :: noise, x ≠ s.cfg.magic) → s.rxq = b :: noise ++ rest →
    run (b :: noise).length s = .next { s with rxq := rest, inCall := true }

/-- R210: DRAIN consumes exactly the bytes it counts off drain_rem. -/
def Obligations.DrainCountsEveryByte : Prop :=
  ∀ s t : State, s.fsm = .drain → step s = .next t → (∀ e, t.stops ≠ s.stops ++ [.error e]) →
    ∃ k, t.rxq = (s.rxq ++ s.turn.arrive).drop k ∧ k ≤ s.openMicro.rxAvail ∧ s.drainRem.toNat = t.drainRem.toNat + k

/-- R206: without the stall option a starved packet is held for ever, and every call returns Pending. -/
def Obligations.StalledPacketIsHeldForEver : Prop :=
  ∀ (s : State) (k : Nat), s.cfg.stallLimit = none → s.isQuiet → Starved s →
    run (k + 1) s = .next { s with inCall := false, stops := s.stops ++ List.replicate (k + 1) .pending }

/-- R206, R182: under STALL_LIMIT = L a starved packet whose age is 0 returns Pending L times, and the next call is TransportStall. -/
def Obligations.StallTimerFiresAfterTheLimit : Prop :=
  ∀ (s : State) (l : Nat), s.cfg.stallLimit = some l → s.isQuiet → Starved s → s.fsm ≠ .idle → s.stallAge = 0 →
    run (l + 1) s = .next { s with
      fsm := .idle
      stallAge := l + 1
      drainRem := if s.cfg.policy = .drain then 0 else s.drainRem
      inCall := false
      stops := s.stops ++ List.replicate l .pending ++ [.error (.transportStall (l + 1))] }

/-- R206: a payload longer than RX_DEPTH is waited for in vain, whatever arrives (how a bounded transport reports is the model's
choice, log 10). -/
def Obligations.PayloadBeyondDepthNeverArrives : Prop :=
  ∀ (s t : State) (d k : Nat), s.cfg.stallLimit = none → s.cfg.rxDepth = some d → s.fsm = .rdPay → d < s.hdrLen.toNat →
    s.hdrLen.toNat ≤ s.cfg.capacity → run k s = .next t →
    t.fsm = .rdPay ∧ t.hdrLen = s.hdrLen ∧ t.stops = s.stops ++ List.replicate k .pending

/-- R121: what a session has answered so far is a prefix of what it answers once it is settled, however the same bytes are cut into
arrivals. -/
def Obligations.AnswersSoFarAreAPrefix : Prop :=
  ∀ (s u t : State) (ts ts' : List Turn) (j k : Nat), s.tail = .quiet → s.cfg.stallLimit = none → allDeliver ts →
    allDeliver ts' → arrivals ts = arrivals ts' → run j { s with turns := ts } = .next u →
    Settled k { s with turns := ts' } t → u.answers <+: t.answers

/-- R121: chunk-size independence. However the same bytes are cut into arrivals, a settled session has given the same non-Pending
answers and has the same txq, debug_mode and fsm. -/
def Obligations.ChunkSizeIndependence : Prop :=
  ∀ (s t t' : State) (ts ts' : List Turn) (k k' : Nat), s.tail = .quiet → s.cfg.stallLimit = none → allDeliver ts →
    allDeliver ts' → arrivals ts = arrivals ts' → Settled k { s with turns := ts } t →
    Settled k' { s with turns := ts' } t' →
    t.answers = t'.answers ∧ t.txq = t'.txq ∧ t.debugMode = t'.debugMode ∧ t.fsm = t'.fsm
end

