-- ==== Sys2Proof/Laws/State.lean ====
section
/-! SUPPORT. One lemma per field of the state per named update, so that no proof unfolds a record update. -/

namespace Sys2Proof.Machine

section
variable (s : State) (k : Nat)

@[simp] theorem State.consume_cfg : (s.consume k).cfg = s.cfg := rfl
@[simp] theorem State.consume_fsm : (s.consume k).fsm = s.fsm := rfl
@[simp] theorem State.consume_hdrCmd : (s.consume k).hdrCmd = s.hdrCmd := rfl
@[simp] theorem State.consume_hdrLen : (s.consume k).hdrLen = s.hdrLen := rfl
@[simp] theorem State.consume_hdrChk : (s.consume k).hdrChk = s.hdrChk := rfl
@[simp] theorem State.consume_payCnt : (s.consume k).payCnt = s.payCnt := rfl
@[simp] theorem State.consume_rxbuf : (s.consume k).rxbuf = s.rxbuf := rfl
@[simp] theorem State.consume_rxDraw : (s.consume k).rxDraw = s.rxDraw := rfl
@[simp] theorem State.consume_debugMode : (s.consume k).debugMode = s.debugMode := rfl
@[simp] theorem State.consume_drainRem : (s.consume k).drainRem = s.drainRem := rfl
@[simp] theorem State.consume_stallAge : (s.consume k).stallAge = s.stallAge := rfl
@[simp] theorem State.consume_rxq : (s.consume k).rxq = s.rxq.drop k := rfl
@[simp] theorem State.consume_txq : (s.consume k).txq = s.txq := rfl
@[simp] theorem State.consume_turns : (s.consume k).turns = s.turns := rfl
@[simp] theorem State.consume_tail : (s.consume k).tail = s.tail := rfl
@[simp] theorem State.consume_inCall : (s.consume k).inCall = s.inCall := rfl
@[simp] theorem State.consume_stops : (s.consume k).stops = s.stops := rfl

end

section
variable (s : State) (bs : List Byte)

@[simp] theorem State.txWrite_cfg : (s.txWrite bs).cfg = s.cfg := rfl
@[simp] theorem State.txWrite_fsm : (s.txWrite bs).fsm = s.fsm := rfl
@[simp] theorem State.txWrite_hdrCmd : (s.txWrite bs).hdrCmd = s.hdrCmd := rfl
@[simp] theorem State.txWrite_hdrLen : (s.txWrite bs).hdrLen = s.hdrLen := rfl
@[simp] theorem State.txWrite_hdrChk : (s.txWrite bs).hdrChk = s.hdrChk := rfl
@[simp] theorem State.txWrite_payCnt : (s.txWrite bs).payCnt = s.payCnt := rfl
@[simp] theorem State.txWrite_rxbuf : (s.txWrite bs).rxbuf = s.rxbuf := rfl
@[simp] theorem State.txWrite_rxDraw : (s.txWrite bs).rxDraw = s.rxDraw := rfl
@[simp] theorem State.txWrite_debugMode : (s.txWrite bs).debugMode = s.debugMode := rfl
@[simp] theorem State.txWrite_drainRem : (s.txWrite bs).drainRem = s.drainRem := rfl
@[simp] theorem State.txWrite_stallAge : (s.txWrite bs).stallAge = s.stallAge := rfl
@[simp] theorem State.txWrite_rxq : (s.txWrite bs).rxq = s.rxq := rfl
@[simp] theorem State.txWrite_txq : (s.txWrite bs).txq = s.txq ++ bs := rfl
@[simp] theorem State.txWrite_turns : (s.txWrite bs).turns = s.turns := rfl
@[simp] theorem State.txWrite_tail : (s.txWrite bs).tail = s.tail := rfl
@[simp] theorem State.txWrite_inCall : (s.txWrite bs).inCall = s.inCall := rfl
@[simp] theorem State.txWrite_stops : (s.txWrite bs).stops = s.stops := rfl

end

section
variable (s : State) (bs : List Byte)

@[simp] theorem State.arrive_cfg : (s.arrive bs).cfg = s.cfg := rfl
@[simp] theorem State.arrive_fsm : (s.arrive bs).fsm = s.fsm := rfl
@[simp] theorem State.arrive_hdrCmd : (s.arrive bs).hdrCmd = s.hdrCmd := rfl
@[simp] theorem State.arrive_hdrLen : (s.arrive bs).hdrLen = s.hdrLen := rfl
@[simp] theorem State.arrive_hdrChk : (s.arrive bs).hdrChk = s.hdrChk := rfl
@[simp] theorem State.arrive_payCnt : (s.arrive bs).payCnt = s.payCnt := rfl
@[simp] theorem State.arrive_rxbuf : (s.arrive bs).rxbuf = s.rxbuf := rfl
@[simp] theorem State.arrive_rxDraw : (s.arrive bs).rxDraw = s.rxDraw := rfl
@[simp] theorem State.arrive_debugMode : (s.arrive bs).debugMode = s.debugMode := rfl
@[simp] theorem State.arrive_drainRem : (s.arrive bs).drainRem = s.drainRem := rfl
@[simp] theorem State.arrive_stallAge : (s.arrive bs).stallAge = s.stallAge := rfl
@[simp] theorem State.arrive_rxq : (s.arrive bs).rxq = s.rxq ++ bs := rfl
@[simp] theorem State.arrive_txq : (s.arrive bs).txq = s.txq := rfl
@[simp] theorem State.arrive_turns : (s.arrive bs).turns = s.turns := rfl
@[simp] theorem State.arrive_tail : (s.arrive bs).tail = s.tail := rfl
@[simp] theorem State.arrive_inCall : (s.arrive bs).inCall = s.inCall := rfl
@[simp] theorem State.arrive_stops : (s.arrive bs).stops = s.stops := rfl

end

section
variable (s : State)

@[simp] theorem State.enterCall_cfg : (s.enterCall).cfg = s.cfg := rfl
@[simp] theorem State.enterCall_fsm : (s.enterCall).fsm = s.fsm := rfl
@[simp] theorem State.enterCall_hdrCmd : (s.enterCall).hdrCmd = s.hdrCmd := rfl
@[simp] theorem State.enterCall_hdrLen : (s.enterCall).hdrLen = s.hdrLen := rfl
@[simp] theorem State.enterCall_hdrChk : (s.enterCall).hdrChk = s.hdrChk := rfl
@[simp] theorem State.enterCall_payCnt : (s.enterCall).payCnt = s.payCnt := rfl
@[simp] theorem State.enterCall_rxbuf : (s.enterCall).rxbuf = s.rxbuf := rfl
@[simp] theorem State.enterCall_rxDraw : (s.enterCall).rxDraw = s.rxDraw := rfl
@[simp] theorem State.enterCall_debugMode : (s.enterCall).debugMode = s.debugMode := rfl
@[simp] theorem State.enterCall_drainRem : (s.enterCall).drainRem = s.drainRem := rfl
@[simp] theorem State.enterCall_stallAge : (s.enterCall).stallAge = s.stallAge := rfl
@[simp] theorem State.enterCall_rxq : (s.enterCall).rxq = s.rxq := rfl
@[simp] theorem State.enterCall_txq : (s.enterCall).txq = s.txq := rfl
@[simp] theorem State.enterCall_turns : (s.enterCall).turns = s.turns := rfl
@[simp] theorem State.enterCall_tail : (s.enterCall).tail = s.tail := rfl
@[simp] theorem State.enterCall_inCall : (s.enterCall).inCall = true := rfl
@[simp] theorem State.enterCall_stops : (s.enterCall).stops = s.stops := rfl

end

section
variable (s : State) (m : Memory)

@[simp] theorem State.setRxbuf_cfg : (s.setRxbuf m).cfg = s.cfg := rfl
@[simp] theorem State.setRxbuf_fsm : (s.setRxbuf m).fsm = s.fsm := rfl
@[simp] theorem State.setRxbuf_hdrCmd : (s.setRxbuf m).hdrCmd = s.hdrCmd := rfl
@[simp] theorem State.setRxbuf_hdrLen : (s.setRxbuf m).hdrLen = s.hdrLen := rfl
@[simp] theorem State.setRxbuf_hdrChk : (s.setRxbuf m).hdrChk = s.hdrChk := rfl
@[simp] theorem State.setRxbuf_payCnt : (s.setRxbuf m).payCnt = s.payCnt := rfl
@[simp] theorem State.setRxbuf_rxbuf : (s.setRxbuf m).rxbuf = m := rfl
@[simp] theorem State.setRxbuf_rxDraw : (s.setRxbuf m).rxDraw = s.rxDraw := rfl
@[simp] theorem State.setRxbuf_debugMode : (s.setRxbuf m).debugMode = s.debugMode := rfl
@[simp] theorem State.setRxbuf_drainRem : (s.setRxbuf m).drainRem = s.drainRem := rfl
@[simp] theorem State.setRxbuf_stallAge : (s.setRxbuf m).stallAge = s.stallAge := rfl
@[simp] theorem State.setRxbuf_rxq : (s.setRxbuf m).rxq = s.rxq := rfl
@[simp] theorem State.setRxbuf_txq : (s.setRxbuf m).txq = s.txq := rfl
@[simp] theorem State.setRxbuf_turns : (s.setRxbuf m).turns = s.turns := rfl
@[simp] theorem State.setRxbuf_tail : (s.setRxbuf m).tail = s.tail := rfl
@[simp] theorem State.setRxbuf_inCall : (s.setRxbuf m).inCall = s.inCall := rfl
@[simp] theorem State.setRxbuf_stops : (s.setRxbuf m).stops = s.stops := rfl

end

section
variable (s : State) (f : Fsm)

@[simp] theorem State.setFsm_cfg : (s.setFsm f).cfg = s.cfg := rfl
@[simp] theorem State.setFsm_fsm : (s.setFsm f).fsm = f := rfl
@[simp] theorem State.setFsm_hdrCmd : (s.setFsm f).hdrCmd = s.hdrCmd := rfl
@[simp] theorem State.setFsm_hdrLen : (s.setFsm f).hdrLen = s.hdrLen := rfl
@[simp] theorem State.setFsm_hdrChk : (s.setFsm f).hdrChk = s.hdrChk := rfl
@[simp] theorem State.setFsm_payCnt : (s.setFsm f).payCnt = s.payCnt := rfl
@[simp] theorem State.setFsm_rxbuf : (s.setFsm f).rxbuf = s.rxbuf := rfl
@[simp] theorem State.setFsm_rxDraw : (s.setFsm f).rxDraw = s.rxDraw := rfl
@[simp] theorem State.setFsm_debugMode : (s.setFsm f).debugMode = s.debugMode := rfl
@[simp] theorem State.setFsm_drainRem : (s.setFsm f).drainRem = s.drainRem := rfl
@[simp] theorem State.setFsm_stallAge : (s.setFsm f).stallAge = s.stallAge := rfl
@[simp] theorem State.setFsm_rxq : (s.setFsm f).rxq = s.rxq := rfl
@[simp] theorem State.setFsm_txq : (s.setFsm f).txq = s.txq := rfl
@[simp] theorem State.setFsm_turns : (s.setFsm f).turns = s.turns := rfl
@[simp] theorem State.setFsm_tail : (s.setFsm f).tail = s.tail := rfl
@[simp] theorem State.setFsm_inCall : (s.setFsm f).inCall = s.inCall := rfl
@[simp] theorem State.setFsm_stops : (s.setFsm f).stops = s.stops := rfl

end

section
variable (s : State) (c : Byte) (l : Half) (k : Byte)

@[simp] theorem State.loadHeader_cfg : (s.loadHeader c l k).cfg = s.cfg := rfl
@[simp] theorem State.loadHeader_fsm : (s.loadHeader c l k).fsm = s.fsm := rfl
@[simp] theorem State.loadHeader_hdrCmd : (s.loadHeader c l k).hdrCmd = c := rfl
@[simp] theorem State.loadHeader_hdrLen : (s.loadHeader c l k).hdrLen = l := rfl
@[simp] theorem State.loadHeader_hdrChk : (s.loadHeader c l k).hdrChk = k := rfl
@[simp] theorem State.loadHeader_payCnt : (s.loadHeader c l k).payCnt = s.payCnt := rfl
@[simp] theorem State.loadHeader_rxbuf : (s.loadHeader c l k).rxbuf = s.rxbuf := rfl
@[simp] theorem State.loadHeader_rxDraw : (s.loadHeader c l k).rxDraw = s.rxDraw := rfl
@[simp] theorem State.loadHeader_debugMode : (s.loadHeader c l k).debugMode = s.debugMode := rfl
@[simp] theorem State.loadHeader_drainRem : (s.loadHeader c l k).drainRem = s.drainRem := rfl
@[simp] theorem State.loadHeader_stallAge : (s.loadHeader c l k).stallAge = s.stallAge := rfl
@[simp] theorem State.loadHeader_rxq : (s.loadHeader c l k).rxq = s.rxq := rfl
@[simp] theorem State.loadHeader_txq : (s.loadHeader c l k).txq = s.txq := rfl
@[simp] theorem State.loadHeader_turns : (s.loadHeader c l k).turns = s.turns := rfl
@[simp] theorem State.loadHeader_tail : (s.loadHeader c l k).tail = s.tail := rfl
@[simp] theorem State.loadHeader_inCall : (s.loadHeader c l k).inCall = s.inCall := rfl
@[simp] theorem State.loadHeader_stops : (s.loadHeader c l k).stops = s.stops := rfl

end

section
variable (s : State) (n : Half)

@[simp] theorem State.setPayCnt_cfg : (s.setPayCnt n).cfg = s.cfg := rfl
@[simp] theorem State.setPayCnt_fsm : (s.setPayCnt n).fsm = s.fsm := rfl
@[simp] theorem State.setPayCnt_hdrCmd : (s.setPayCnt n).hdrCmd = s.hdrCmd := rfl
@[simp] theorem State.setPayCnt_hdrLen : (s.setPayCnt n).hdrLen = s.hdrLen := rfl
@[simp] theorem State.setPayCnt_hdrChk : (s.setPayCnt n).hdrChk = s.hdrChk := rfl
@[simp] theorem State.setPayCnt_payCnt : (s.setPayCnt n).payCnt = n := rfl
@[simp] theorem State.setPayCnt_rxbuf : (s.setPayCnt n).rxbuf = s.rxbuf := rfl
@[simp] theorem State.setPayCnt_rxDraw : (s.setPayCnt n).rxDraw = s.rxDraw := rfl
@[simp] theorem State.setPayCnt_debugMode : (s.setPayCnt n).debugMode = s.debugMode := rfl
@[simp] theorem State.setPayCnt_drainRem : (s.setPayCnt n).drainRem = s.drainRem := rfl
@[simp] theorem State.setPayCnt_stallAge : (s.setPayCnt n).stallAge = s.stallAge := rfl
@[simp] theorem State.setPayCnt_rxq : (s.setPayCnt n).rxq = s.rxq := rfl
@[simp] theorem State.setPayCnt_txq : (s.setPayCnt n).txq = s.txq := rfl
@[simp] theorem State.setPayCnt_turns : (s.setPayCnt n).turns = s.turns := rfl
@[simp] theorem State.setPayCnt_tail : (s.setPayCnt n).tail = s.tail := rfl
@[simp] theorem State.setPayCnt_inCall : (s.setPayCnt n).inCall = s.inCall := rfl
@[simp] theorem State.setPayCnt_stops : (s.setPayCnt n).stops = s.stops := rfl

end

section
variable (s : State) (n : Half)

@[simp] theorem State.setDrainRem_cfg : (s.setDrainRem n).cfg = s.cfg := rfl
@[simp] theorem State.setDrainRem_fsm : (s.setDrainRem n).fsm = s.fsm := rfl
@[simp] theorem State.setDrainRem_hdrCmd : (s.setDrainRem n).hdrCmd = s.hdrCmd := rfl
@[simp] theorem State.setDrainRem_hdrLen : (s.setDrainRem n).hdrLen = s.hdrLen := rfl
@[simp] theorem State.setDrainRem_hdrChk : (s.setDrainRem n).hdrChk = s.hdrChk := rfl
@[simp] theorem State.setDrainRem_payCnt : (s.setDrainRem n).payCnt = s.payCnt := rfl
@[simp] theorem State.setDrainRem_rxbuf : (s.setDrainRem n).rxbuf = s.rxbuf := rfl
@[simp] theorem State.setDrainRem_rxDraw : (s.setDrainRem n).rxDraw = s.rxDraw := rfl
@[simp] theorem State.setDrainRem_debugMode : (s.setDrainRem n).debugMode = s.debugMode := rfl
@[simp] theorem State.setDrainRem_drainRem : (s.setDrainRem n).drainRem = n := rfl
@[simp] theorem State.setDrainRem_stallAge : (s.setDrainRem n).stallAge = s.stallAge := rfl
@[simp] theorem State.setDrainRem_rxq : (s.setDrainRem n).rxq = s.rxq := rfl
@[simp] theorem State.setDrainRem_txq : (s.setDrainRem n).txq = s.txq := rfl
@[simp] theorem State.setDrainRem_turns : (s.setDrainRem n).turns = s.turns := rfl
@[simp] theorem State.setDrainRem_tail : (s.setDrainRem n).tail = s.tail := rfl
@[simp] theorem State.setDrainRem_inCall : (s.setDrainRem n).inCall = s.inCall := rfl
@[simp] theorem State.setDrainRem_stops : (s.setDrainRem n).stops = s.stops := rfl

end

section
variable (s : State) (n : Nat)

@[simp] theorem State.setStallAge_cfg : (s.setStallAge n).cfg = s.cfg := rfl
@[simp] theorem State.setStallAge_fsm : (s.setStallAge n).fsm = s.fsm := rfl
@[simp] theorem State.setStallAge_hdrCmd : (s.setStallAge n).hdrCmd = s.hdrCmd := rfl
@[simp] theorem State.setStallAge_hdrLen : (s.setStallAge n).hdrLen = s.hdrLen := rfl
@[simp] theorem State.setStallAge_hdrChk : (s.setStallAge n).hdrChk = s.hdrChk := rfl
@[simp] theorem State.setStallAge_payCnt : (s.setStallAge n).payCnt = s.payCnt := rfl
@[simp] theorem State.setStallAge_rxbuf : (s.setStallAge n).rxbuf = s.rxbuf := rfl
@[simp] theorem State.setStallAge_rxDraw : (s.setStallAge n).rxDraw = s.rxDraw := rfl
@[simp] theorem State.setStallAge_debugMode : (s.setStallAge n).debugMode = s.debugMode := rfl
@[simp] theorem State.setStallAge_drainRem : (s.setStallAge n).drainRem = s.drainRem := rfl
@[simp] theorem State.setStallAge_stallAge : (s.setStallAge n).stallAge = n := rfl
@[simp] theorem State.setStallAge_rxq : (s.setStallAge n).rxq = s.rxq := rfl
@[simp] theorem State.setStallAge_txq : (s.setStallAge n).txq = s.txq := rfl
@[simp] theorem State.setStallAge_turns : (s.setStallAge n).turns = s.turns := rfl
@[simp] theorem State.setStallAge_tail : (s.setStallAge n).tail = s.tail := rfl
@[simp] theorem State.setStallAge_inCall : (s.setStallAge n).inCall = s.inCall := rfl
@[simp] theorem State.setStallAge_stops : (s.setStallAge n).stops = s.stops := rfl

end

section
variable (s : State) (b : Bool)

@[simp] theorem State.setDebugMode_cfg : (s.setDebugMode b).cfg = s.cfg := rfl
@[simp] theorem State.setDebugMode_fsm : (s.setDebugMode b).fsm = s.fsm := rfl
@[simp] theorem State.setDebugMode_hdrCmd : (s.setDebugMode b).hdrCmd = s.hdrCmd := rfl
@[simp] theorem State.setDebugMode_hdrLen : (s.setDebugMode b).hdrLen = s.hdrLen := rfl
@[simp] theorem State.setDebugMode_hdrChk : (s.setDebugMode b).hdrChk = s.hdrChk := rfl
@[simp] theorem State.setDebugMode_payCnt : (s.setDebugMode b).payCnt = s.payCnt := rfl
@[simp] theorem State.setDebugMode_rxbuf : (s.setDebugMode b).rxbuf = s.rxbuf := rfl
@[simp] theorem State.setDebugMode_rxDraw : (s.setDebugMode b).rxDraw = s.rxDraw := rfl
@[simp] theorem State.setDebugMode_debugMode : (s.setDebugMode b).debugMode = b := rfl
@[simp] theorem State.setDebugMode_drainRem : (s.setDebugMode b).drainRem = s.drainRem := rfl
@[simp] theorem State.setDebugMode_stallAge : (s.setDebugMode b).stallAge = s.stallAge := rfl
@[simp] theorem State.setDebugMode_rxq : (s.setDebugMode b).rxq = s.rxq := rfl
@[simp] theorem State.setDebugMode_txq : (s.setDebugMode b).txq = s.txq := rfl
@[simp] theorem State.setDebugMode_turns : (s.setDebugMode b).turns = s.turns := rfl
@[simp] theorem State.setDebugMode_tail : (s.setDebugMode b).tail = s.tail := rfl
@[simp] theorem State.setDebugMode_inCall : (s.setDebugMode b).inCall = s.inCall := rfl
@[simp] theorem State.setDebugMode_stops : (s.setDebugMode b).stops = s.stops := rfl

end

section
variable (s : State) (e : Stop)

@[simp] theorem State.stop_cfg : (s.stop e).cfg = s.cfg := rfl
@[simp] theorem State.stop_fsm : (s.stop e).fsm = s.fsm := rfl
@[simp] theorem State.stop_hdrCmd : (s.stop e).hdrCmd = s.hdrCmd := rfl
@[simp] theorem State.stop_hdrLen : (s.stop e).hdrLen = s.hdrLen := rfl
@[simp] theorem State.stop_hdrChk : (s.stop e).hdrChk = s.hdrChk := rfl
@[simp] theorem State.stop_payCnt : (s.stop e).payCnt = s.payCnt := rfl
@[simp] theorem State.stop_rxbuf : (s.stop e).rxbuf = s.rxbuf := rfl
@[simp] theorem State.stop_rxDraw : (s.stop e).rxDraw = s.rxDraw := rfl
@[simp] theorem State.stop_debugMode : (s.stop e).debugMode = s.debugMode := rfl
@[simp] theorem State.stop_drainRem : (s.stop e).drainRem = s.drainRem := rfl
@[simp] theorem State.stop_stallAge : (s.stop e).stallAge = s.stallAge := rfl
@[simp] theorem State.stop_rxq : (s.stop e).rxq = s.rxq := rfl
@[simp] theorem State.stop_txq : (s.stop e).txq = s.txq := rfl
@[simp] theorem State.stop_turns : (s.stop e).turns = s.turns := rfl
@[simp] theorem State.stop_tail : (s.stop e).tail = s.tail := rfl
@[simp] theorem State.stop_inCall : (s.stop e).inCall = false := rfl
@[simp] theorem State.stop_stops : (s.stop e).stops = s.stops ++ [e] := rfl

end

section
variable (s : State) (r : Byte)

@[simp] theorem State.complete_cfg : (s.complete r).cfg = s.cfg := rfl
@[simp] theorem State.complete_fsm : (s.complete r).fsm = s.fsm := rfl
@[simp] theorem State.complete_hdrCmd : (s.complete r).hdrCmd = s.hdrCmd := rfl
@[simp] theorem State.complete_hdrLen : (s.complete r).hdrLen = s.hdrLen := rfl
@[simp] theorem State.complete_hdrChk : (s.complete r).hdrChk = s.hdrChk := rfl
@[simp] theorem State.complete_payCnt : (s.complete r).payCnt = s.payCnt := rfl
@[simp] theorem State.complete_rxbuf : (s.complete r).rxbuf = s.rxbuf := rfl
@[simp] theorem State.complete_rxDraw : (s.complete r).rxDraw = s.rxDraw := rfl
@[simp] theorem State.complete_debugMode : (s.complete r).debugMode = s.debugMode := rfl
@[simp] theorem State.complete_drainRem : (s.complete r).drainRem = s.drainRem := rfl
@[simp] theorem State.complete_stallAge : (s.complete r).stallAge = s.stallAge := rfl
@[simp] theorem State.complete_rxq : (s.complete r).rxq = s.rxq := rfl
@[simp] theorem State.complete_txq : (s.complete r).txq = s.txq := rfl
@[simp] theorem State.complete_turns : (s.complete r).turns = s.turns := rfl
@[simp] theorem State.complete_tail : (s.complete r).tail = s.tail := rfl
@[simp] theorem State.complete_inCall : (s.complete r).inCall = false := rfl
@[simp] theorem State.complete_stops : (s.complete r).stops = s.stops ++ [.completed r] := rfl

end

section
variable (s : State) (e : ErrInfo) (f : Fsm)

@[simp] theorem State.raiseError_cfg : (s.raiseError e f).cfg = s.cfg := rfl
@[simp] theorem State.raiseError_fsm : (s.raiseError e f).fsm = f := rfl
@[simp] theorem State.raiseError_hdrCmd : (s.raiseError e f).hdrCmd = s.hdrCmd := rfl
@[simp] theorem State.raiseError_hdrLen : (s.raiseError e f).hdrLen = s.hdrLen := rfl
@[simp] theorem State.raiseError_hdrChk : (s.raiseError e f).hdrChk = s.hdrChk := rfl
@[simp] theorem State.raiseError_payCnt : (s.raiseError e f).payCnt = s.payCnt := rfl
@[simp] theorem State.raiseError_rxbuf : (s.raiseError e f).rxbuf = s.rxbuf := rfl
@[simp] theorem State.raiseError_rxDraw : (s.raiseError e f).rxDraw = s.rxDraw := rfl
@[simp] theorem State.raiseError_debugMode : (s.raiseError e f).debugMode = s.debugMode := rfl
@[simp] theorem State.raiseError_drainRem : (s.raiseError e f).drainRem = s.drainRem := rfl
@[simp] theorem State.raiseError_stallAge : (s.raiseError e f).stallAge = s.stallAge := rfl
@[simp] theorem State.raiseError_rxq : (s.raiseError e f).rxq = s.rxq := rfl
@[simp] theorem State.raiseError_txq : (s.raiseError e f).txq = s.txq := rfl
@[simp] theorem State.raiseError_turns : (s.raiseError e f).turns = s.turns := rfl
@[simp] theorem State.raiseError_tail : (s.raiseError e f).tail = s.tail := rfl
@[simp] theorem State.raiseError_inCall : (s.raiseError e f).inCall = false := rfl
@[simp] theorem State.raiseError_stops : (s.raiseError e f).stops = s.stops ++ [.error e] := rfl

end

section
variable (s : State) (on : Bool) (r : Byte)

@[simp] theorem State.toggle_cfg : (s.toggle on r).cfg = s.cfg := rfl
@[simp] theorem State.toggle_fsm : (s.toggle on r).fsm = s.fsm := rfl
@[simp] theorem State.toggle_hdrCmd : (s.toggle on r).hdrCmd = s.hdrCmd := rfl
@[simp] theorem State.toggle_hdrLen : (s.toggle on r).hdrLen = s.hdrLen := rfl
@[simp] theorem State.toggle_hdrChk : (s.toggle on r).hdrChk = s.hdrChk := rfl
@[simp] theorem State.toggle_payCnt : (s.toggle on r).payCnt = s.payCnt := rfl
@[simp] theorem State.toggle_rxbuf : (s.toggle on r).rxbuf = s.rxbuf := rfl
@[simp] theorem State.toggle_rxDraw : (s.toggle on r).rxDraw = s.rxDraw := rfl
@[simp] theorem State.toggle_debugMode : (s.toggle on r).debugMode = on := rfl
@[simp] theorem State.toggle_drainRem : (s.toggle on r).drainRem = s.drainRem := rfl
@[simp] theorem State.toggle_stallAge : (s.toggle on r).stallAge = s.stallAge := rfl
@[simp] theorem State.toggle_rxq : (s.toggle on r).rxq = s.rxq := rfl
@[simp] theorem State.toggle_txq : (s.toggle on r).txq = s.txq ++ ackFrame s.cfg := rfl
@[simp] theorem State.toggle_turns : (s.toggle on r).turns = s.turns := rfl
@[simp] theorem State.toggle_tail : (s.toggle on r).tail = s.tail := rfl
@[simp] theorem State.toggle_inCall : (s.toggle on r).inCall = false := rfl
@[simp] theorem State.toggle_stops : (s.toggle on r).stops = s.stops ++ [.completed r] := rfl

end

section
variable (s : State)

@[simp] theorem State.clearDrain_cfg : (s.clearDrain).cfg = s.cfg := by
  unfold State.clearDrain; split <;> rfl
@[simp] theorem State.clearDrain_fsm : (s.clearDrain).fsm = s.fsm := by
  unfold State.clearDrain; split <;> rfl
@[simp] theorem State.clearDrain_hdrCmd : (s.clearDrain).hdrCmd = s.hdrCmd := by
  unfold State.clearDrain; split <;> rfl
@[simp] theorem State.clearDrain_hdrLen : (s.clearDrain).hdrLen = s.hdrLen := by
  unfold State.clearDrain; split <;> rfl
@[simp] theorem State.clearDrain_hdrChk : (s.clearDrain).hdrChk = s.hdrChk := by
  unfold State.clearDrain; split <;> rfl
@[simp] theorem State.clearDrain_payCnt : (s.clearDrain).payCnt = s.payCnt := by
  unfold State.clearDrain; split <;> rfl
@[simp] theorem State.clearDrain_rxbuf : (s.clearDrain).rxbuf = s.rxbuf := by
  unfold State.clearDrain; split <;> rfl
@[simp] theorem State.clearDrain_rxDraw : (s.clearDrain).rxDraw = s.rxDraw := by
  unfold State.clearDrain; split <;> rfl
@[simp] theorem State.clearDrain_debugMode : (s.clearDrain).debugMode = s.debugMode := by
  unfold State.clearDrain; split <;> rfl
@[simp] theorem State.clearDrain_stallAge : (s.clearDrain).stallAge = s.stallAge := by
  unfold State.clearDrain; split <;> rfl
@[simp] theorem State.clearDrain_rxq : (s.clearDrain).rxq = s.rxq := by
  unfold State.clearDrain; split <;> rfl
@[simp] theorem State.clearDrain_txq : (s.clearDrain).txq = s.txq := by
  unfold State.clearDrain; split <;> rfl
@[simp] theorem State.clearDrain_turns : (s.clearDrain).turns = s.turns := by
  unfold State.clearDrain; split <;> rfl
@[simp] theorem State.clearDrain_tail : (s.clearDrain).tail = s.tail := by
  unfold State.clearDrain; split <;> rfl
@[simp] theorem State.clearDrain_inCall : (s.clearDrain).inCall = s.inCall := by
  unfold State.clearDrain; split <;> rfl
@[simp] theorem State.clearDrain_stops : (s.clearDrain).stops = s.stops := by
  unfold State.clearDrain; split <;> rfl

end

section
variable (s : State)

@[simp] theorem State.restartAge_cfg : (s.restartAge).cfg = s.cfg := by
  unfold State.restartAge; split <;> rfl
@[simp] theorem State.restartAge_fsm : (s.restartAge).fsm = s.fsm := by
  unfold State.restartAge; split <;> rfl
@[simp] theorem State.restartAge_hdrCmd : (s.restartAge).hdrCmd = s.hdrCmd := by
  unfold State.restartAge; split <;> rfl
@[simp] theorem State.restartAge_hdrLen : (s.restartAge).hdrLen = s.hdrLen := by
  unfold State.restartAge; split <;> rfl
@[simp] theorem State.restartAge_hdrChk : (s.restartAge).hdrChk = s.hdrChk := by
  unfold State.restartAge; split <;> rfl
@[simp] theorem State.restartAge_payCnt : (s.restartAge).payCnt = s.payCnt := by
  unfold State.restartAge; split <;> rfl
@[simp] theorem State.restartAge_rxbuf : (s.restartAge).rxbuf = s.rxbuf := by
  unfold State.restartAge; split <;> rfl
@[simp] theorem State.restartAge_rxDraw : (s.restartAge).rxDraw = s.rxDraw := by
  unfold State.restartAge; split <;> rfl
@[simp] theorem State.restartAge_debugMode : (s.restartAge).debugMode = s.debugMode := by
  unfold State.restartAge; split <;> rfl
@[simp] theorem State.restartAge_drainRem : (s.restartAge).drainRem = s.drainRem := by
  unfold State.restartAge; split <;> rfl
@[simp] theorem State.restartAge_rxq : (s.restartAge).rxq = s.rxq := by
  unfold State.restartAge; split <;> rfl
@[simp] theorem State.restartAge_txq : (s.restartAge).txq = s.txq := by
  unfold State.restartAge; split <;> rfl
@[simp] theorem State.restartAge_turns : (s.restartAge).turns = s.turns := by
  unfold State.restartAge; split <;> rfl
@[simp] theorem State.restartAge_tail : (s.restartAge).tail = s.tail := by
  unfold State.restartAge; split <;> rfl
@[simp] theorem State.restartAge_inCall : (s.restartAge).inCall = s.inCall := by
  unfold State.restartAge; split <;> rfl
@[simp] theorem State.restartAge_stops : (s.restartAge).stops = s.stops := by
  unfold State.restartAge; split <;> rfl

end

section
variable (s : State) (n : Nat)

@[simp] theorem State.drained_cfg : (s.drained n).cfg = s.cfg := by
  unfold State.drained; split <;> rfl
@[simp] theorem State.drained_hdrCmd : (s.drained n).hdrCmd = s.hdrCmd := by
  unfold State.drained; split <;> rfl
@[simp] theorem State.drained_hdrLen : (s.drained n).hdrLen = s.hdrLen := by
  unfold State.drained; split <;> rfl
@[simp] theorem State.drained_hdrChk : (s.drained n).hdrChk = s.hdrChk := by
  unfold State.drained; split <;> rfl
@[simp] theorem State.drained_payCnt : (s.drained n).payCnt = s.payCnt := by
  unfold State.drained; split <;> rfl
@[simp] theorem State.drained_rxbuf : (s.drained n).rxbuf = s.rxbuf := by
  unfold State.drained; split <;> rfl
@[simp] theorem State.drained_rxDraw : (s.drained n).rxDraw = s.rxDraw := by
  unfold State.drained; split <;> rfl
@[simp] theorem State.drained_debugMode : (s.drained n).debugMode = s.debugMode := by
  unfold State.drained; split <;> rfl
@[simp] theorem State.drained_stallAge : (s.drained n).stallAge = s.stallAge := by
  unfold State.drained; split <;> rfl
@[simp] theorem State.drained_rxq : (s.drained n).rxq = s.rxq := by
  unfold State.drained; split <;> rfl
@[simp] theorem State.drained_txq : (s.drained n).txq = s.txq := by
  unfold State.drained; split <;> rfl
@[simp] theorem State.drained_turns : (s.drained n).turns = s.turns := by
  unfold State.drained; split <;> rfl
@[simp] theorem State.drained_tail : (s.drained n).tail = s.tail := by
  unfold State.drained; split <;> rfl
@[simp] theorem State.drained_inCall : (s.drained n).inCall = s.inCall := by
  unfold State.drained; split <;> rfl
@[simp] theorem State.drained_stops : (s.drained n).stops = s.stops := by
  unfold State.drained; split <;> rfl

end

section
variable (s : State)

@[simp] theorem State.advanceTurn_cfg : (s.advanceTurn).cfg = s.cfg := by
  unfold State.advanceTurn; split; · rfl
  · split <;> rfl
@[simp] theorem State.advanceTurn_fsm : (s.advanceTurn).fsm = s.fsm := by
  unfold State.advanceTurn; split; · rfl
  · split <;> rfl
@[simp] theorem State.advanceTurn_hdrCmd : (s.advanceTurn).hdrCmd = s.hdrCmd := by
  unfold State.advanceTurn; split; · rfl
  · split <;> rfl
@[simp] theorem State.advanceTurn_hdrLen : (s.advanceTurn).hdrLen = s.hdrLen := by
  unfold State.advanceTurn; split; · rfl
  · split <;> rfl
@[simp] theorem State.advanceTurn_hdrChk : (s.advanceTurn).hdrChk = s.hdrChk := by
  unfold State.advanceTurn; split; · rfl
  · split <;> rfl
@[simp] theorem State.advanceTurn_payCnt : (s.advanceTurn).payCnt = s.payCnt := by
  unfold State.advanceTurn; split; · rfl
  · split <;> rfl
@[simp] theorem State.advanceTurn_rxbuf : (s.advanceTurn).rxbuf = s.rxbuf := by
  unfold State.advanceTurn; split; · rfl
  · split <;> rfl
@[simp] theorem State.advanceTurn_rxDraw : (s.advanceTurn).rxDraw = s.rxDraw := by
  unfold State.advanceTurn; split; · rfl
  · split <;> rfl
@[simp] theorem State.advanceTurn_debugMode : (s.advanceTurn).debugMode = s.debugMode := by
  unfold State.advanceTurn; split; · rfl
  · split <;> rfl
@[simp] theorem State.advanceTurn_drainRem : (s.advanceTurn).drainRem = s.drainRem := by
  unfold State.advanceTurn; split; · rfl
  · split <;> rfl
@[simp] theorem State.advanceTurn_stallAge : (s.advanceTurn).stallAge = s.stallAge := by
  unfold State.advanceTurn; split; · rfl
  · split <;> rfl
@[simp] theorem State.advanceTurn_rxq : (s.advanceTurn).rxq = s.rxq := by
  unfold State.advanceTurn; split; · rfl
  · split <;> rfl
@[simp] theorem State.advanceTurn_txq : (s.advanceTurn).txq = s.txq := by
  unfold State.advanceTurn; split; · rfl
  · split <;> rfl
@[simp] theorem State.advanceTurn_inCall : (s.advanceTurn).inCall = s.inCall := by
  unfold State.advanceTurn; split; · rfl
  · split <;> rfl
@[simp] theorem State.advanceTurn_stops : (s.advanceTurn).stops = s.stops := by
  unfold State.advanceTurn; split; · rfl
  · split <;> rfl

end

end Sys2Proof.Machine
end

