-- ==== Sys2Proof/Laws/Memory.lean ====
section
/-! SUPPORT. What rxbuf's operations do: a read after a write, every other byte kept, the canonical form kept and what it says, and
what MemWrite and MemRead answer. -/

namespace Sys2Proof.Machine

/-- A byte read after a byte is written. -/
theorem Memory.load_store (m : Memory) (i j : Nat) (v : Byte) :
    Memory.load (m.store i v) j = if i = j then some v else m.load j := by
  induction m with
  | nil => by_cases h : i = j <;> simp [Memory.store, Memory.load, h]
  | cons c m ih =>
    obtain ⟨a, b⟩ := c
    simp only [Memory.store]
    split
    · by_cases h : i = j <;> simp [Memory.load, h]
    · split
      · rename_i h; subst h
        by_cases h : i = j <;> simp [Memory.load, h]
      · simp only [Memory.load, ih]
        by_cases h : a = j
        · have : i ≠ j := by omega
          simp [h, this]
        · simp [h]

/-- A byte read after a list of bytes is written. -/
theorem Memory.load_storeAll (vs : List Byte) : ∀ (m : Memory) (i j : Nat),
    Memory.load (m.storeAll i vs) j = if i ≤ j ∧ j < i + vs.length then vs[j - i]? else m.load j := by
  induction vs with
  | nil => intro m i j; simp [Memory.storeAll]
  | cons v vs ih =>
    intro m i j
    simp only [Memory.storeAll, Memory.load_store, ih, List.length_cons]
    by_cases h : i = j
    · subst h; simp
    · simp only [h, if_false]
      by_cases h2 : i + 1 ≤ j ∧ j < i + 1 + vs.length
      · have h3 : i ≤ j ∧ j < i + (vs.length + 1) := by omega
        have h4 : j - i = (j - (i + 1)) + 1 := by omega
        simp only [if_pos h2, if_pos h3]
        rw [h4, List.getElem?_cons_succ]
      · have h3 : ¬(i ≤ j ∧ j < i + (vs.length + 1)) := by omega
        simp only [if_neg h2, if_neg h3]

/-- A byte read after a list of bytes is written, over any contents at reset. -/
theorem Memory.byteAt_storeAll (free : Nat → Byte) (vs : List Byte) (m : Memory) (i j : Nat) :
    (m.storeAll i vs).byteAt free j = if i ≤ j ∧ j < i + vs.length then vs.getD (j - i) 0 else m.byteAt free j := by
  unfold Memory.byteAt
  rw [Memory.load_storeAll]
  split
  · rename_i h
    rw [List.getElem?_eq_getElem (show j - i < vs.length by omega), List.getD_eq_getElem?_getD,
      List.getElem?_eq_getElem (show j - i < vs.length by omega)]
    rfl
  · rfl

/-- A read gives as many bytes as asked. -/
@[simp] theorem Memory.loadAll_length (free : Nat → Byte) (m : Memory) (n : Nat) : ∀ i : Nat,
    (m.loadAll free i n).length = n := by
  induction n with
  | zero => intro i; rfl
  | succ n ih => intro i; simp [Memory.loadAll, ih]

/-- Byte k of a read. -/
theorem Memory.loadAll_getElem? (free : Nat → Byte) (m : Memory) (n : Nat) : ∀ i k : Nat, k < n →
    (m.loadAll free i n)[k]? = some (m.byteAt free (i + k)) := by
  induction n with
  | zero => intro i k h; omega
  | succ n ih =>
    intro i k h
    cases k with
    | zero => rfl
    | succ k =>
      rw [Memory.loadAll, List.getElem?_cons_succ, ih (i + 1) k (by omega), Nat.add_assoc, Nat.add_comm 1 k]

/-- Bytes that have all been written are read in order. -/
theorem Memory.loadAll_eq (free : Nat → Byte) (vs : List Byte) : ∀ (m : Memory) (i : Nat),
    (∀ k, k < vs.length → m.load (i + k) = vs[k]?) → m.loadAll free i vs.length = vs := by
  induction vs with
  | nil => intro m i _; rfl
  | cons v vs ih =>
    intro m i h
    have h0 := h 0 (by simp)
    have h1 : ∀ k, k < vs.length → m.load (i + 1 + k) = vs[k]? := by
      intro k hk
      have := h (k + 1) (by simpa using hk)
      rwa [List.getElem?_cons_succ, show i + (k + 1) = i + 1 + k by omega] at this
    simp only [Nat.add_zero, List.getElem?_cons_zero] at h0
    simp [Memory.loadAll, Memory.byteAt, h0, ih m (i + 1) h1]

/-- A list of bytes read back after it is written. -/
theorem Memory.loadAll_storeAll (free : Nat → Byte) (m : Memory) (i : Nat) (vs : List Byte) :
    (m.storeAll i vs).loadAll free i vs.length = vs := by
  apply Memory.loadAll_eq
  intro k hk
  rw [Memory.load_storeAll, if_pos (by omega), Nat.add_sub_cancel_left]

/-- No byte below every listed address has been written. -/
theorem Memory.load_below {m : Memory} {i : Nat} (h : ∀ c ∈ m, i < c.1) : m.load i = none := by
  induction m with
  | nil => rfl
  | cons c m ih =>
    have := h c (by simp)
    rw [Memory.load, if_neg (by omega)]
    exact ih fun d hd => h d (List.mem_cons_of_mem c hd)

/-- Two memories in canonical form in which the same bytes have been written are the same list. -/
theorem Memory.ext_load : ∀ m m' : Memory, Memory.wf m → Memory.wf m' → (∀ i, m.load i = m'.load i) → m = m'
  | [], [], _, _, _ => rfl
  | [], (a, b) :: m, _, _, h => by have := h a; simp [Memory.load] at this
  | (a, b) :: m, [], _, _, h => by have := h a; simp [Memory.load] at this
  | (a, b) :: m, (a', b') :: m', hm, hm', h => by
    obtain ⟨h1, h2⟩ := List.pairwise_cons.1 hm
    obtain ⟨h1', h2'⟩ := List.pairwise_cons.1 hm'
    have haa : a = a' := by
      rcases Nat.lt_trichotomy a a' with hlt | heq | hlt
      · have := h a
        rw [Memory.load, if_pos rfl, Memory.load_below (m := (a', b') :: m') (by
          intro c hc
          rcases List.mem_cons.1 hc with hc | hc
          · rw [hc]; exact hlt
          · exact Nat.lt_trans hlt (h1' c hc))] at this
        cases this
      · exact heq
      · have := h a'
        rw [Memory.load_below (m := (a, b) :: m) (by
          intro c hc
          rcases List.mem_cons.1 hc with hc | hc
          · rw [hc]; exact hlt
          · exact Nat.lt_trans hlt (h1 c hc)), Memory.load, if_pos rfl] at this
        cases this
    subst haa
    have hb := h a
    simp only [Memory.load, if_true, Option.some.injEq] at hb
    subst hb
    rw [Memory.ext_load m m' h2 h2' (by
      intro i
      by_cases hi : a = i
      · subst hi
        rw [Memory.load_below h1, Memory.load_below h1']
      · have := h i
        rwa [Memory.load, if_neg hi, Memory.load, if_neg hi] at this)]

/-- Equal memories are equal data: two memories in canonical form that read alike whatever the bytes at reset are the same list. -/
theorem Memory.ext_byteAt {m m' : Memory} (hm : Memory.wf m) (hm' : Memory.wf m')
    (h : ∀ (free : Nat → Byte) (i : Nat), m.byteAt free i = m'.byteAt free i) : m = m' := by
  refine Memory.ext_load m m' hm hm' fun i => ?_
  have h0 := h (fun _ => 0x00) i
  have h1 := h (fun _ => 0x01) i
  unfold Memory.byteAt at h0 h1
  cases ha : m.load i with
  | none =>
    cases hb : m'.load i with
    | none => rfl
    | some v =>
      rw [ha, hb] at h0 h1
      exact absurd (show (0x00 : Byte) = 0x01 from h0.trans h1.symm) (by decide)
  | some v =>
    cases hb : m'.load i with
    | none =>
      rw [ha, hb] at h0 h1
      exact absurd (show (0x00 : Byte) = 0x01 from h0.symm.trans h1) (by decide)
    | some w =>
      rw [ha, hb] at h0
      exact congrArg some h0

/-- The addresses of a memory after a byte is written: the old ones and the written one. -/
theorem Memory.mem_store {m : Memory} {i : Nat} {v : Byte} {c : Host.Cell} (h : c ∈ m.store i v) : c ∈ m ∨ c.1 = i := by
  induction m with
  | nil => simp only [Memory.store, List.mem_singleton] at h; right; rw [h]
  | cons d m ih =>
    obtain ⟨a, b⟩ := d
    simp only [Memory.store] at h
    split at h
    · rcases List.mem_cons.1 h with h | h
      · right; rw [h]
      · left; exact h
    · split at h
      · rcases List.mem_cons.1 h with h | h
        · right; rw [h]
        · left; exact List.mem_cons_of_mem _ h
      · rcases List.mem_cons.1 h with h | h
        · left; rw [h]; exact List.mem_cons_self
        · rcases ih h with h | h
          · left; exact List.mem_cons_of_mem _ h
          · right; exact h

/-- Writing a byte keeps the canonical form. -/
theorem Memory.store_wf (m : Memory) (i : Nat) (v : Byte) (h : Memory.wf m) : Memory.wf (m.store i v) := by
  induction m with
  | nil => simp [Memory.store, Memory.wf]
  | cons d m ih =>
    obtain ⟨a, b⟩ := d
    obtain ⟨h1, h2⟩ := List.pairwise_cons.1 h
    simp only [Memory.store]
    split
    · rename_i hlt
      refine List.pairwise_cons.2 ⟨?_, h⟩
      intro c hc
      rcases List.mem_cons.1 hc with hc | hc
      · rw [hc]; exact hlt
      · exact Nat.lt_trans hlt (h1 c hc)
    · split
      · rename_i _ heq
        subst heq
        exact List.pairwise_cons.2 ⟨h1, h2⟩
      · refine List.pairwise_cons.2 ⟨?_, ih h2⟩
        intro c hc
        rcases Memory.mem_store hc with hc | hc
        · exact h1 c hc
        · show a < c.1
          omega

/-- Writing a list of bytes keeps the canonical form. -/
theorem Memory.storeAll_wf (vs : List Byte) : ∀ (m : Memory) (i : Nat), Memory.wf m → Memory.wf (m.storeAll i vs) := by
  induction vs with
  | nil => intro m i h; exact h
  | cons v vs ih => intro m i h; exact Memory.store_wf _ _ _ (ih m (i + 1) h)

/-- The addresses of a memory after a list of bytes is written. -/
theorem Memory.mem_storeAll (vs : List Byte) : ∀ (m : Memory) (i : Nat) (c : Host.Cell),
    c ∈ m.storeAll i vs → c ∈ m ∨ c.1 < i + vs.length := by
  induction vs with
  | nil => intro m i c h; left; exact h
  | cons v vs ih =>
    intro m i c h
    rcases Memory.mem_store h with h | h
    · rcases ih m (i + 1) c h with h | h
      · left; exact h
      · right; simp only [List.length_cons]; omega
    · right; simp only [List.length_cons]; omega

/-- MemWrite answers with the bytes stored, or with the fault of an access outside the buffer. -/
theorem State.memWrite_eq (i : Nat) (v : List Byte) (s : State) :
    s.memWrite i v = if i + v.length ≤ s.cfg.capacity then .ok (s.setRxbuf (s.rxbuf.storeAll i v))
      else .error (.rxbufOutOfBounds i v.length) := rfl

/-- Everything a MemWrite that succeeds can do. -/
theorem State.memWrite_ok {i : Nat} {v : List Byte} {s t : State} (h : s.memWrite i v = .ok t) :
    i + v.length ≤ s.cfg.capacity ∧ t = s.setRxbuf (s.rxbuf.storeAll i v) := by
  rw [State.memWrite_eq] at h
  split at h
  · rename_i hle
    exact ⟨hle, by injection h with h; exact h.symm⟩
  · cases h

/-- MemRead answers the bytes of rxbuf, or the fault of an access outside the buffer. -/
theorem State.memRead_eq (i n : Nat) (s : State) :
    s.memRead i n = if i + n ≤ s.cfg.capacity then .ok (s.rxbuf.loadAll (Config.resetByte s.rxDraw) i n)
      else .error (.rxbufOutOfBounds i n) := rfl

/-- Everything a MemRead that succeeds can do: byte k of what it gives is rxbuf[i + k]. -/
theorem State.memRead_ok {i n : Nat} {s : State} {bs : List Byte} (h : s.memRead i n = .ok bs) :
    i + n ≤ s.cfg.capacity ∧ bs.length = n ∧ ∀ k, k < n → bs[k]? = some (s.rxByte (i + k)) := by
  rw [State.memRead_eq] at h
  split at h
  · rename_i hle
    injection h with h
    subst h
    exact ⟨hle, by simp, fun k hk => Memory.loadAll_getElem? _ _ _ _ _ hk⟩
  · cases h

end Sys2Proof.Machine
end

