-- ==== Sys2Proof/Laws/Operations.lean ====
section
/-! SUPPORT. One lemma per shared operation: what the transport's turn does to the state, how many bytes a read delivers, what a
pending stop can answer, what a hand-off and a dispatch answer. -/

namespace Sys2Proof.Machine

section
variable (s : State)

/-! The transport's turn appends its bytes and runs a call; every register keeps its value. -/

@[simp] theorem State.openMicro_cfg : s.openMicro.cfg = s.cfg := by simp [State.openMicro]
@[simp] theorem State.openMicro_fsm : s.openMicro.fsm = s.fsm := by simp [State.openMicro]
@[simp] theorem State.openMicro_hdrCmd : s.openMicro.hdrCmd = s.hdrCmd := by simp [State.openMicro]
@[simp] theorem State.openMicro_hdrLen : s.openMicro.hdrLen = s.hdrLen := by simp [State.openMicro]
@[simp] theorem State.openMicro_hdrChk : s.openMicro.hdrChk = s.hdrChk := by simp [State.openMicro]
@[simp] theorem State.openMicro_payCnt : s.openMicro.payCnt = s.payCnt := by simp [State.openMicro]
@[simp] theorem State.openMicro_rxbuf : s.openMicro.rxbuf = s.rxbuf := by simp [State.openMicro]
@[simp] theorem State.openMicro_rxDraw : s.openMicro.rxDraw = s.rxDraw := by simp [State.openMicro]
@[simp] theorem State.openMicro_debugMode : s.openMicro.debugMode = s.debugMode := by simp [State.openMicro]
@[simp] theorem State.openMicro_drainRem : s.openMicro.drainRem = s.drainRem := by simp [State.openMicro]
@[simp] theorem State.openMicro_stallAge : s.openMicro.stallAge = s.stallAge := by simp [State.openMicro]
@[simp] theorem State.openMicro_txq : s.openMicro.txq = s.txq := by simp [State.openMicro]
@[simp] theorem State.openMicro_stops : s.openMicro.stops = s.stops := by simp [State.openMicro]
@[simp] theorem State.openMicro_rxq : s.openMicro.rxq = s.rxq ++ s.turn.arrive := by simp [State.openMicro]
@[simp] theorem State.openMicro_inCall : s.openMicro.inCall = true := by simp [State.openMicro]

/-- A listed turn is taken from the list. -/
theorem State.advanceTurn_cons {t : Turn} {ts : List Turn} (h : s.turns = t :: ts) :
    s.turn = t ∧ s.advanceTurn = { s with turns := ts } := by
  unfold State.turn State.advanceTurn
  rw [h]
  exact ⟨rfl, rfl⟩

/-- A quiet transport brings nothing, delivers all, and stays as it is. -/
theorem State.advanceTurn_quiet (h : s.turns = []) (hq : s.tail = .quiet) :
    s.turn = Turn.quiet ∧ s.advanceTurn = s := by
  unfold State.turn State.advanceTurn
  rw [h, hq]
  exact ⟨rfl, rfl⟩

/-- What the transport reports is in rxq. -/
theorem State.rxAvail_le : s.rxAvail ≤ s.rxq.length := by
  unfold State.rxAvail
  split <;> omega

end

/-- A read delivers at most what is asked for. -/
theorem delivered_le (t : Turn) (n : Nat) : delivered t n ≤ n := by
  unfold delivered
  split <;> omega

/-- A turn without a short read delivers all. -/
theorem delivered_all {t : Turn} (h : t.short = none) (n : Nat) : delivered t n = n := by
  unfold delivered
  rw [h]

/-- A read of no byte delivers none. -/
@[simp] theorem delivered_zero (t : Turn) : delivered t 0 = 0 := Nat.le_zero.1 (delivered_le t 0)

/-- Everything a pending stop can answer (40_framer.md R117). -/
theorem State.pendingStop_cases (s : State) :
    ((s.cfg.stallLimit = none ∨ s.fsm = .idle) ∧ s.pendingStop = s.stop .pending) ∨
    (∃ l, s.cfg.stallLimit = some l ∧ s.fsm ≠ .idle ∧ s.stallAge + 1 ≤ l ∧
      s.pendingStop = (s.setStallAge (s.stallAge + 1)).stop .pending) ∨
    (∃ l, s.cfg.stallLimit = some l ∧ s.fsm ≠ .idle ∧ l < s.stallAge + 1 ∧
      s.pendingStop = ((s.setStallAge (s.stallAge + 1)).clearDrain).raiseError (.transportStall (s.stallAge + 1)) .idle) := by
  unfold State.pendingStop
  cases hl : s.cfg.stallLimit with
  | none => simp
  | some l =>
    by_cases hi : s.fsm = .idle
    · simp [hi]
    · simp only [if_neg hi]
      unfold State.ageStop
      by_cases ha : l < s.stallAge + 1
      · simp only [if_pos ha]
        right; right
        exact ⟨l, rfl, hi, ha, trivial⟩
      · simp only [if_neg ha]
        right; left
        exact ⟨l, rfl, hi, by omega, trivial⟩

/-- Clearing a drain leaves nothing to drain where nothing was, and where the build drains. -/
theorem State.clearDrain_drainRem (s : State) :
    s.clearDrain.drainRem = if s.cfg.policy = .drain then 0 else s.drainRem := by
  unfold State.clearDrain
  cases h : s.cfg.policy <;> simp

/-- Everything a dispatch can do: it completes, or it toggles debug_mode (41_dispatcher.md R140). -/
theorem exec_cases (i : Instr) (s : State) :
    (∃ r, exec i s = .next (s.complete r)) ∨ (i.cmd = 0x04 ∧ exec i s = .next (s.toggle true 0x04)) ∨
      (i.cmd = 0x05 ∧ exec i s = .next (s.toggle false 0x05)) := by
  cases i with
  | act1 len chk payload => left; exact ⟨_, rfl⟩
  | act2 len chk payload => left; exact ⟨_, rfl⟩
  | act3 len chk payload => left; exact ⟨_, rfl⟩
  | dbgOn len chk payload => right; left; exact ⟨rfl, rfl⟩
  | dbgOff len chk payload => right; right; exact ⟨rfl, rfl⟩
  | ack len chk payload => left; exact ⟨_, rfl⟩
  | unknown cmd len chk payload => left; exact ⟨_, rfl⟩

/-- The packet a command byte selects has that command and the fields it was given. -/
theorem lookup_fields (cmd : Byte) (len : Half) (chk : Byte) (payload : List Byte) :
    (lookup cmd len chk payload).cmd = cmd ∧ (lookup cmd len chk payload).len = len ∧
      (lookup cmd len chk payload).chk = chk ∧ (lookup cmd len chk payload).payload = payload := by
  unfold lookup
  repeat' split
  all_goals refine ⟨?_, rfl, rfl, rfl⟩
  all_goals first | (rename_i h; exact h.symm) | rfl

/-- A hand-off dispatches the bytes at the start of rxbuf, when they are there (40_framer.md R125). -/
theorem handOff_eq {s : State} {payload : List Byte} (h : s.payloadView = .ok payload) :
    handOff s = dispatch s.hdrCmd s.hdrLen s.hdrChk payload (s.setFsm .idle) := by
  unfold handOff
  rw [h]

/-- The payload view of a buffer into which as many bytes as hdr_len have just been written. -/
theorem State.payloadView_stored {s : State} {m : Memory} {p : List Byte} (hb : s.rxbuf = m.storeAll 0 p)
    (hl : p.length = s.hdrLen.toNat) (hc : s.hdrLen.toNat ≤ s.cfg.capacity) : s.payloadView = .ok p := by
  unfold State.payloadView State.memRead
  rw [if_pos (by omega), hb, ← hl]
  exact congrArg Except.ok (Memory.loadAll_storeAll _ m 0 p)

end Sys2Proof.Machine
end

