-- ==== Sys2Proof/Laws/PerInstr.lean ====
section
/-! SUPPORT. Family FrameLayout: where the fields of each packet stand in its bytes (30_encoding.md R80). -/

namespace Sys2Proof.Laws.FrameLayout

/-- The packet's bytes: MAGIC, the command, then two length bytes and the checksum, then the payload (30_encoding.md R80, R90). -/
def Statement (i : Instr) : Prop :=
  ∀ p : Params, (encode p i).length = 5 + i.payload.length ∧ (encode p i)[0]? = some p.magic ∧
    (encode p i)[1]? = some i.cmd ∧ (encode p i)[2]? = some (lenLow i.len) ∧ (encode p i)[3]? = some (lenHigh i.len) ∧
    (encode p i)[4]? = some i.chk ∧ (encode p i).drop 5 = i.payload

/-- The layout holds of any packet's bytes. -/
theorem layout (i : Instr) : Statement i := by
  intro p
  refine ⟨?_, rfl, rfl, rfl, rfl, rfl, rfl⟩
  simp only [encode, frameHeader, List.length_append, List.length_cons, List.length_nil]

theorem act1 (len : Half) (chk : Byte) (payload : List Byte) : Statement (.act1 len chk payload) := layout _
theorem act2 (len : Half) (chk : Byte) (payload : List Byte) : Statement (.act2 len chk payload) := layout _
theorem act3 (len : Half) (chk : Byte) (payload : List Byte) : Statement (.act3 len chk payload) := layout _
theorem dbgOn (len : Half) (chk : Byte) (payload : List Byte) : Statement (.dbgOn len chk payload) := layout _
theorem dbgOff (len : Half) (chk : Byte) (payload : List Byte) : Statement (.dbgOff len chk payload) := layout _
theorem ack (len : Half) (chk : Byte) (payload : List Byte) : Statement (.ack len chk payload) := layout _
theorem unknown (cmd : Byte) (len : Half) (chk : Byte) (payload : List Byte) : Statement (.unknown cmd len chk payload) :=
  layout _

end Sys2Proof.Laws.FrameLayout
end

