-- ==== Sys2Proof/Laws/Run.lean ====
section
/-! SUPPORT. Runs of the machine, one micro-step at a time, and the induction over them. -/

namespace Sys2Proof.Machine

/-- No micro-step. -/
@[simp] theorem run_zero (s : State) : run 0 s = .next s := rfl

/-- A run of any machine, one step unfolded. -/
theorem coreRun_succ (M : Host.Core) (k : Nat) (s : M.State) : M.run (k + 1) s =
    match M.step s with
    | .next s' => M.run k s'
    | .fault r => .fault r
    | .refused r => .refused r := rfl

/-- A run of any machine after a step that answers next. -/
theorem coreRun_next (M : Host.Core) (k : Nat) (s t : M.State) (h : M.step s = .next t) : M.run (k + 1) s = M.run k t := by
  rw [coreRun_succ, h]

/-- A run of any machine that answers next begins with a step that does. -/
theorem coreRun_succ_next (M : Host.Core) (k : Nat) (s u : M.State) (h : M.run (k + 1) s = .next u) :
    ∃ t, M.step s = .next t ∧ M.run k t = .next u := by
  rw [coreRun_succ] at h
  cases hs : M.step s with
  | next t => rw [hs] at h; exact ⟨t, rfl, h⟩
  | fault f => rw [hs] at h; cases h
  | refused r => rw [hs] at h; cases h

/-- One micro-step and then k more, when the first answers next. -/
theorem run_succ {s t : State} (k : Nat) (h : step s = .next t) : run (k + 1) s = run k t :=
  coreRun_next Sys2Proof.core k s t h

/-- A run of k + 1 micro-steps that answers next begins with a micro-step that does. -/
theorem run_succ_next {s u : State} {k : Nat} (h : run (k + 1) s = .next u) : ∃ t, step s = .next t ∧ run k t = .next u :=
  coreRun_succ_next Sys2Proof.core k s u h

/-- What holds of a state and is kept by every step holds after every run from it. -/
theorem run_induction {P : State → Prop} (hstep : ∀ s t, P s → step s = .next t → P t) :
    ∀ (k : Nat) (s t : State), P s → run k s = .next t → P t := by
  intro k
  induction k with
  | zero => intro s t hs h; cases h; exact hs
  | succ k ih =>
    intro s t hs h
    obtain ⟨u, hu, hr⟩ := run_succ_next h
    exact ih u t (hstep s u hs hu) hr

end Sys2Proof.Machine
end

