-- ==== Sys2Proof/Laws/Step.lean ====
section
/-! SUPPORT. Everything one micro-step can do, said once: `step_to` lists the states a step can answer, rule by rule. -/

namespace Sys2Proof.Machine

/-- A step applies the rule that the table selects. -/
theorem step_rule {s : State} {r : MicroRule} (h : selectRule s.turn s.openMicro = r) :
    step s = applyRule r s.turn s.openMicro := by
  rw [step, microStep, h]

/-- What PAY-READ answers when the payload is there and is delivered whole: the packet's meaning, the payload stored. -/
theorem payRead_eq (t : Turn) (s : State) (hc : s.hdrLen.toNat ≤ s.cfg.capacity) (ha : s.hdrLen.toNat ≤ s.rxAvail)
    (hd : delivered t s.hdrLen.toNat = s.hdrLen.toNat) :
    payRead t s = exec (lookup s.hdrCmd s.hdrLen s.hdrChk (s.rxq.take s.hdrLen.toNat))
      (((s.consume s.hdrLen.toNat).setRxbuf (s.rxbuf.storeAll 0 (s.rxq.take s.hdrLen.toNat))).setFsm .idle) := by
  have hl : (s.rxq.take s.hdrLen.toNat).length = s.hdrLen.toNat := by
    have := s.rxAvail_le
    rw [List.length_take]
    omega
  simp only [payRead, State.rxRead, hd]
  rw [State.memWrite_eq, if_pos (by simp only [State.consume_cfg]; omega)]
  simp only
  rw [handOff_eq (State.payloadView_stored (m := s.rxbuf) (p := s.rxq.take s.hdrLen.toNat) (by simp) (by simpa using hl)
    (by simpa using hc))]
  simp only [dispatch, State.setRxbuf_hdrCmd, State.setRxbuf_hdrLen, State.setRxbuf_hdrChk, State.consume_hdrCmd,
    State.consume_hdrLen, State.consume_hdrChk, State.consume_rxbuf]

/-- What PAY-SHORT answers: the bytes delivered are stored, and the call ends in TransportReadFailure. -/
theorem payShort_eq (t : Turn) (s : State) (hc : s.hdrLen.toNat ≤ s.cfg.capacity) :
    payShort t s = .next ((((s.consume (delivered t s.hdrLen.toNat)).setRxbuf
      (s.rxbuf.storeAll 0 (s.rxq.take (delivered t s.hdrLen.toNat))))).raiseError
        (.transportReadFailure s.hdrLen.toNat (delivered t s.hdrLen.toNat)) .idle) := by
  have hk := delivered_le t s.hdrLen.toNat
  simp only [payShort, State.rxRead]
  rw [State.memWrite_eq, if_pos (by simp only [State.consume_cfg, List.length_take]; omega)]
  simp only [State.consume_rxbuf]

/-- The states a micro-step from s can answer, one case per shape of rule (40_framer.md R101). -/
inductive StepTo (s : State) : State → Prop
  /-- IDLE-EMPTY, HDR-WAIT, PAY-WAIT, DRAIN-WAIT. -/
  | starve (h : Starved s.openMicro) : StepTo s s.openMicro.pendingStop
  /-- IDLE-NOISE. -/
  | noise (hf : s.fsm = .idle) (ha : 1 ≤ s.openMicro.rxAvail) (hd : delivered s.turn 1 = 1)
      (hb : s.openMicro.rxq.head? ≠ some s.cfg.magic) : StepTo s (s.openMicro.consume 1)
  /-- IDLE-MAGIC. -/
  | magic (hf : s.fsm = .idle) (ha : 1 ≤ s.openMicro.rxAvail) (hd : delivered s.turn 1 = 1)
      (hb : s.openMicro.rxq.head? = some s.cfg.magic) :
      StepTo s (((s.openMicro.consume 1).setFsm .rdHdr).setPayCnt 0).restartAge
  /-- IDLE-SHORT, HDR-SHORT. -/
  | short (n : Nat) (hf : (s.fsm = .idle ∧ n = 1) ∨ (s.fsm = .rdHdr ∧ n = 4)) (ha : n ≤ s.openMicro.rxAvail)
      (hd : delivered s.turn n < n) :
      StepTo s ((s.openMicro.consume (delivered s.turn n)).raiseError (.transportReadFailure n (delivered s.turn n)) .idle)
  /-- HDR-ASSEMBLE. -/
  | header (b0 b1 b2 b3 : Byte) (rest : List Byte) (hf : s.fsm = .rdHdr) (ha : 4 ≤ s.openMicro.rxAvail)
      (hd : delivered s.turn 4 = 4) (hq : s.openMicro.rxq = b0 :: b1 :: b2 :: b3 :: rest) :
      StepTo s (((s.openMicro.consume 4).loadHeader b0 (assembleLen b1 b2) b3).setFsm .rdPay)
  /-- PAY-ZERO. -/
  | zero (u : State) (hf : s.fsm = .rdPay) (hl : s.hdrLen.toNat = 0)
      (he : exec (lookup s.hdrCmd 0 s.hdrChk []) (s.openMicro.setFsm .idle) = .next u) : StepTo s u
  /-- PAY-OVERSIZE under Drop. -/
  | dropped (hf : s.fsm = .rdPay) (hl : s.cfg.capacity < s.hdrLen.toNat) (hp : s.cfg.policy = .drop) :
      StepTo s (s.openMicro.raiseError (.frameTooLarge s.hdrLen.toNat) .idle)
  /-- PAY-OVERSIZE under Drain. -/
  | draining (hf : s.fsm = .rdPay) (hl : s.cfg.capacity < s.hdrLen.toNat) (hz : s.hdrLen.toNat ≠ 0)
      (hp : s.cfg.policy = .drain) :
      StepTo s ((s.openMicro.setDrainRem s.hdrLen).raiseError (.frameTooLarge s.hdrLen.toNat) .drain)
  /-- PAY-READ. -/
  | payload (u : State) (hf : s.fsm = .rdPay) (h1 : 1 ≤ s.hdrLen.toNat) (hc : s.hdrLen.toNat ≤ s.cfg.capacity)
      (ha : s.hdrLen.toNat ≤ s.openMicro.rxAvail) (hd : delivered s.turn s.hdrLen.toNat = s.hdrLen.toNat)
      (he : exec (lookup s.hdrCmd s.hdrLen s.hdrChk (s.openMicro.rxq.take s.hdrLen.toNat))
        (((s.openMicro.consume s.hdrLen.toNat).setRxbuf
          (s.rxbuf.storeAll 0 (s.openMicro.rxq.take s.hdrLen.toNat))).setFsm .idle) = .next u) : StepTo s u
  /-- PAY-SHORT. -/
  | payloadShort (hf : s.fsm = .rdPay) (h1 : 1 ≤ s.hdrLen.toNat) (hc : s.hdrLen.toNat ≤ s.cfg.capacity)
      (ha : s.hdrLen.toNat ≤ s.openMicro.rxAvail) (hd : delivered s.turn s.hdrLen.toNat < s.hdrLen.toNat) :
      StepTo s (((s.openMicro.consume (delivered s.turn s.hdrLen.toNat)).setRxbuf
        (s.rxbuf.storeAll 0 (s.openMicro.rxq.take (delivered s.turn s.hdrLen.toNat)))).raiseError
          (.transportReadFailure s.hdrLen.toNat (delivered s.turn s.hdrLen.toNat)) .idle)
  /-- DRAIN-DISCARD. -/
  | discard (n : Nat) (hf : s.fsm = .drain) (ha : 1 ≤ s.openMicro.rxAvail)
      (hn : n = min s.openMicro.rxAvail s.drainRem.toNat) (hd : delivered s.turn n = n) :
      StepTo s ((s.openMicro.consume n).drained n)
  /-- DRAIN-SHORT. -/
  | discardShort (n : Nat) (hf : s.fsm = .drain) (ha : 1 ≤ s.openMicro.rxAvail)
      (hn : n = min s.openMicro.rxAvail s.drainRem.toNat) (hd : delivered s.turn n < n) :
      StepTo s (((s.openMicro.consume (delivered s.turn n)).setDrainRem 0).raiseError
        (.transportReadFailure n (delivered s.turn n)) .idle)

/-- A micro-step in IDLE. -/
theorem step_to_idle {s u : State} (hf : s.fsm = .idle) (h : step s = .next u) : StepTo s u := by
  by_cases ha : s.openMicro.rxAvail = 0
  · rw [step_rule (r := .idleEmpty) (by simp only [selectRule, State.openMicro_fsm, hf, if_pos ha])] at h
    cases h
    exact .starve (Or.inl ⟨by simpa using hf, ha⟩)
  · by_cases hd : delivered s.turn 1 = 0
    · rw [step_rule (r := .idleShort) (by simp only [selectRule, State.openMicro_fsm, hf, if_neg ha, if_pos hd])] at h
      cases h
      exact .short 1 (Or.inl ⟨hf, rfl⟩) (by omega) (by omega)
    · have h1 : delivered s.turn 1 = 1 := by
        have := delivered_le s.turn 1
        omega
      by_cases hb : s.openMicro.rxq.head? = some s.cfg.magic
      · rw [step_rule (r := .idleMagic) (by
          simp only [selectRule, State.openMicro_fsm, State.openMicro_cfg, hf, if_neg ha, if_neg hd, if_pos hb])] at h
        simp only [applyRule, idleMagic, State.rxRead, h1] at h
        cases h
        exact .magic hf (by omega) h1 hb
      · rw [step_rule (r := .idleNoise) (by
          simp only [selectRule, State.openMicro_fsm, State.openMicro_cfg, hf, if_neg ha, if_neg hd, if_neg hb])] at h
        simp only [applyRule, idleNoise, State.rxRead, h1] at h
        cases h
        exact .noise hf (by omega) h1 hb

/-- A list of at least four bytes. -/
theorem four_bytes {q : List Byte} (h : 4 ≤ q.length) : ∃ b0 b1 b2 b3 rest, q = b0 :: b1 :: b2 :: b3 :: rest := by
  match q, h with
  | b0 :: b1 :: b2 :: b3 :: rest, _ => exact ⟨b0, b1, b2, b3, rest, rfl⟩

/-- A micro-step in RD_HDR. -/
theorem step_to_rdHdr {s u : State} (hf : s.fsm = .rdHdr) (h : step s = .next u) : StepTo s u := by
  by_cases ha : s.openMicro.rxAvail < 4
  · rw [step_rule (r := .hdrWait) (by simp only [selectRule, State.openMicro_fsm, hf, if_pos ha])] at h
    cases h
    exact .starve (Or.inr (Or.inl ⟨by simpa using hf, ha⟩))
  · by_cases hd : delivered s.turn 4 < 4
    · rw [step_rule (r := .hdrShort) (by simp only [selectRule, State.openMicro_fsm, hf, if_neg ha, if_pos hd])] at h
      cases h
      exact .short 4 (Or.inr ⟨hf, rfl⟩) (by omega) hd
    · have h4 : delivered s.turn 4 = 4 := by
        have := delivered_le s.turn 4
        omega
      have hlen := s.openMicro.rxAvail_le
      obtain ⟨b0, b1, b2, b3, rest, hq⟩ := four_bytes (q := s.openMicro.rxq) (by omega)
      rw [step_rule (r := .hdrAssemble) (by
        simp only [selectRule, State.openMicro_fsm, hf, if_neg ha, if_neg hd])] at h
      simp only [applyRule, hdrAssemble, State.rxRead, h4, hq] at h
      cases h
      exact .header b0 b1 b2 b3 rest hf (by omega) h4 hq

/-- A micro-step in RD_PAY. -/
theorem step_to_rdPay {s u : State} (hf : s.fsm = .rdPay) (h : step s = .next u) : StepTo s u := by
  by_cases hz : s.hdrLen.toNat = 0
  · rw [step_rule (r := .payZero) (by
      simp only [selectRule, State.openMicro_fsm, State.openMicro_hdrLen, hf, if_pos hz])] at h
    simp only [applyRule, payZero, dispatch, State.openMicro_hdrCmd, State.openMicro_hdrChk] at h
    exact .zero u hf hz h
  · by_cases hc : s.cfg.capacity < s.hdrLen.toNat
    · rw [step_rule (r := .payOversize) (by
        simp only [selectRule, State.openMicro_fsm, State.openMicro_hdrLen, State.openMicro_cfg, hf, if_neg hz,
          if_pos hc])] at h
      simp only [applyRule, payOversize, State.openMicro_cfg, State.openMicro_hdrLen] at h
      cases hp : s.cfg.policy with
      | drop =>
        simp only [hp] at h
        cases h
        exact .dropped hf hc hp
      | drain =>
        simp only [hp] at h
        cases h
        exact .draining hf hc hz hp
    · by_cases ha : s.openMicro.rxAvail < s.hdrLen.toNat
      · rw [step_rule (r := .payWait) (by
          simp only [selectRule, State.openMicro_fsm, State.openMicro_hdrLen, State.openMicro_cfg, hf, if_neg hz,
            if_neg hc, if_pos ha])] at h
        cases h
        refine .starve (Or.inr (Or.inr (Or.inl ⟨?_, ?_, ?_, ?_⟩)))
        · simpa using hf
        · simp only [State.openMicro_hdrLen]; omega
        · simp only [State.openMicro_hdrLen, State.openMicro_cfg]; omega
        · simpa using ha
      · by_cases hd : delivered s.turn s.hdrLen.toNat < s.hdrLen.toNat
        · rw [step_rule (r := .payShort) (by
            simp only [selectRule, State.openMicro_fsm, State.openMicro_hdrLen, State.openMicro_cfg, hf, if_neg hz,
              if_neg hc, if_neg ha, if_pos hd])] at h
          rw [applyRule, payShort_eq _ _ (by simp only [State.openMicro_hdrLen, State.openMicro_cfg]; omega)] at h
          simp only [State.openMicro_hdrLen, State.openMicro_rxbuf] at h
          cases h
          exact .payloadShort hf (by omega) (by omega) (by omega) hd
        · have hall : delivered s.turn s.hdrLen.toNat = s.hdrLen.toNat := by
            have := delivered_le s.turn s.hdrLen.toNat
            omega
          rw [step_rule (r := .payRead) (by
            simp only [selectRule, State.openMicro_fsm, State.openMicro_hdrLen, State.openMicro_cfg, hf, if_neg hz,
              if_neg hc, if_neg ha, if_neg hd])] at h
          rw [applyRule, payRead_eq _ _ (by simp only [State.openMicro_hdrLen, State.openMicro_cfg]; omega)
            (by simp only [State.openMicro_hdrLen]; omega) (by simpa using hall)] at h
          simp only [State.openMicro_hdrLen, State.openMicro_hdrCmd, State.openMicro_hdrChk, State.openMicro_rxbuf] at h
          exact .payload u hf (by omega) (by omega) (by omega) hall h

/-- A micro-step in DRAIN. -/
theorem step_to_drain {s u : State} (hf : s.fsm = .drain) (h : step s = .next u) : StepTo s u := by
  have hn : s.openMicro.drainCount = min s.openMicro.rxAvail s.drainRem.toNat := by simp [State.drainCount]
  by_cases ha : s.openMicro.rxAvail = 0
  · rw [step_rule (r := .drainWait) (by simp only [selectRule, State.openMicro_fsm, hf, if_pos ha])] at h
    cases h
    exact .starve (Or.inr (Or.inr (Or.inr ⟨by simpa using hf, ha⟩)))
  · by_cases hd : delivered s.turn s.openMicro.drainCount < s.openMicro.drainCount
    · rw [step_rule (r := .drainShort) (by simp only [selectRule, State.openMicro_fsm, hf, if_neg ha, if_pos hd])] at h
      cases h
      exact .discardShort _ hf (by omega) hn hd
    · have hall : delivered s.turn s.openMicro.drainCount = s.openMicro.drainCount := by
        have := delivered_le s.turn s.openMicro.drainCount
        omega
      rw [step_rule (r := .drainDiscard) (by simp only [selectRule, State.openMicro_fsm, hf, if_neg ha, if_neg hd])] at h
      simp only [applyRule, drainDiscard, State.rxRead, hall] at h
      cases h
      exact .discard _ hf (by omega) hn hall

/-- Everything a micro-step that answers next can do. -/
theorem step_to {s u : State} (h : step s = .next u) : StepTo s u := by
  cases hf : s.fsm with
  | idle => exact step_to_idle hf h
  | rdHdr => exact step_to_rdHdr hf h
  | rdPay => exact step_to_rdPay hf h
  | drain => exact step_to_drain hf h

end Sys2Proof.Machine
end

