-- ==== Sys2Proof/Tests/Slice0.lean ====
section
/-! SUPPORT. Tests of one step or one decoding each, with expected results from the spec's vectors (95_test_vectors.md) or worked out by
hand from its rules, and for each statement with hypotheses a concrete case that meets them. -/

namespace Sys2Proof.Tests

open Sys2Proof Sys2Proof.Machine

/-! ### Helpers -/

/-- A state of the default build with a quiet transport. -/
def base (f : Fsm) (cmd : Byte) (len : Half) (chk : Byte) (q : List Byte) : State :=
  { State.reset with
    fsm := f
    hdrCmd := cmd
    hdrLen := len
    hdrChk := chk
    rxq := q }

/-- IDLE with bytes in rxq. -/
def idleWith (q : List Byte) : State := base .idle 0 0 0 q

/-- RD_HDR with bytes in rxq. -/
def hdrWith (q : List Byte) : State := base .rdHdr 0 0 0 q

/-- DRAIN of a Drain build, n bytes left to discard. -/
def drainWith (n : Half) (q : List Byte) : State :=
  { base .drain 0x01 n 0 q with
    drainRem := n
    cfg := { Params.default with policy := .drain } }

/-- The debug mode is on. -/
def debugOn (s : State) : State := { s with debugMode := true }

/-- The next read delivers at most k bytes. -/
def shortRead (k : Nat) (s : State) : State := { s with turns := [⟨[], some k⟩] }

/-- A build with STALL_LIMIT = l. -/
def withStall (l : Nat) (s : State) : State := { s with cfg := { s.cfg with stallLimit := some l } }

/-- The state that an outcome answers. -/
def answered (o : Host.Outcome State Fault Refusal) : Option State :=
  match o with
  | .next t => some t
  | .fault _ => none
  | .refused _ => none

/-- What a dispatch can change: debug_mode, txq and the Outcomes given. -/
def seen (o : Host.Outcome State Fault Refusal) : Option (Bool × List Byte × List Stop) :=
  (answered o).map fun t => (t.debugMode, t.txq, t.stops)

/-- What a micro-step of the framer shows: fsm, the rest of rxq and the Outcomes given. -/
def framed (o : Host.Outcome State Fault Refusal) : Option (Fsm × List Byte × List Stop) :=
  (answered o).map fun t => (t.fsm, t.rxq, t.stops)

/-! ### Well-formedness -/

/-- Each of the three checks refuses an ill-formed packet that the two others accept. -/
theorem test_wf_refuses_payload_of_other_length :
    (Instr.act1 2 0 [0x01]).payloadMatches = false ∧ (Instr.act1 2 0 [0x01]).lenFits Params.default = true ∧
      (Instr.act1 2 0 [0x01]).wf Params.default = false := by decide
theorem test_wf_refuses_oversized_length :
    (Instr.ack 3 0 [1, 2, 3]).lenFits { Params.default with capacity := 2 } = false ∧
      (Instr.ack 3 0 [1, 2, 3]).payloadMatches = true ∧
      (Instr.ack 3 0 [1, 2, 3]).wf { Params.default with capacity := 2 } = false ∧
      (Instr.ack 2 0 [1, 2]).wf { Params.default with capacity := 2 } = true := by decide
theorem test_wf_refuses_listed_command_as_unknown :
    (Instr.unknown 0x06 0 0 []).cmdUnlisted = false ∧ (Instr.unknown 0x06 0 0 []).wf Params.default = false ∧
      (Instr.unknown 0x01 0 0 []).wf Params.default = false ∧ (Instr.unknown 0x00 0 0 []).wf Params.default = true ∧
      (Instr.unknown 0x07 0 0 []).wf Params.default = true := by decide

/-! ### Decoding: words written out from 30_encoding.md R80 and R87 -/

/-- 95_test_vectors.md S1. -/
theorem test_decode_act1 :
    decode Params.default [0xAA, 0x01, 0x02, 0x00, 0x5A, 0xDE, 0xAD] = .ok (.act1 2 0x5A [0xDE, 0xAD], []) := by decide
/-- 95_test_vectors.md F7: little endian. -/
theorem test_decode_act2 :
    decode Params.default [0xAA, 0x02, 0x03, 0x00, 0x00, 0x01, 0x02, 0x03] = .ok (.act2 3 0x00 [0x01, 0x02, 0x03], []) := by
  decide
/-- 41_dispatcher.md R144's example, with a byte after the packet. -/
theorem test_decode_act3 :
    decode Params.default [0xAA, 0x03, 0x01, 0x00, 0x00, 0xFF, 0x11] = .ok (.act3 1 0x00 [0xFF], [0x11]) := by decide
/-- 95_test_vectors.md DV19. -/
theorem test_decode_dbgOn :
    decode Params.default [0xAA, 0x04, 0x02, 0x00, 0x99, 0x12, 0x34] = .ok (.dbgOn 2 0x99 [0x12, 0x34], []) := by decide
/-- 30_encoding.md R93. -/
theorem test_decode_dbgOff : decode Params.default [0xAA, 0x05, 0x00, 0x00, 0x00] = .ok (.dbgOff 0 0x00 [], []) := by decide
/-- 30_encoding.md R89. -/
theorem test_decode_ack : decode Params.default [0xAA, 0x06, 0x00, 0x00, 0x00] = .ok (.ack 0 0x00 [], []) := by decide
/-- 95_test_vectors.md F9: MAGIC as a command. -/
theorem test_decode_unknown :
    decode Params.default [0xAA, 0xAA, 0x00, 0x00, 0x00] = .ok (.unknown 0xAA 0 0x00 [], []) ∧
      decode Params.default [0xAA, 0x00, 0x00, 0x00, 0xFF] = .ok (.unknown 0x00 0 0xFF [], []) ∧
      decode Params.default [0xAA, 0x07, 0x00, 0x00, 0x00] = .ok (.unknown 0x07 0 0x00 [], []) := by decide
/-- Every way a list of bytes is no packet (20_memory.md R64, R65; 95_test_vectors.md L7, L9, L11). -/
theorem test_decode_rejects :
    decode Params.default [] = .error .empty ∧ decode Params.default [0xAB, 0x04, 0, 0, 0] = .error (.notMagic 0xAB) ∧
      decode Params.default [0xAA, 0x04, 0x00, 0x00] = .error .headerShort ∧
      decode Params.default [0xAA, 0x01, 0x01, 0x04, 0x00] = .error (.frameTooLarge 1025) ∧
      decode Params.default [0xAA, 0x01, 0xFF, 0xFF, 0x00] = .error (.frameTooLarge 65535) ∧
      decode Params.default [0xAA, 0x01, 0x34, 0x12, 0x00] = .error (.frameTooLarge 4660) ∧
      decode Params.default [0xAA, 0x01, 0x02, 0x00, 0x00, 0x11] = .error .payloadShort := by decide
/-- The encoder writes the bytes of 30_encoding.md R80 (P1's first two packets). -/
theorem test_encode :
    encode Params.default (.dbgOn 0 0 []) = [0xAA, 0x04, 0x00, 0x00, 0x00] ∧
      encode Params.default (.act1 2 0x5A [0xDE, 0xAD]) = [0xAA, 0x01, 0x02, 0x00, 0x5A, 0xDE, 0xAD] ∧
      frameHeader Params.default 0x01 1025 0x00 = [0xAA, 0x01, 0x01, 0x04, 0x00] := by decide
/-- The `match` values of spec/opcode_table.json, each read as its row's packet of length 0. -/
theorem test_table_words_decode :
    decodeTableWord 40 0x01AA = some (.act1 0 0 []) ∧ decodeTableWord 40 0x02AA = some (.act2 0 0 []) ∧
      decodeTableWord 40 0x03AA = some (.act3 0 0 []) ∧ decodeTableWord 40 0x04AA = some (.dbgOn 0 0 []) ∧
      decodeTableWord 40 0x05AA = some (.dbgOff 0 0 []) ∧ decodeTableWord 40 0x06AA = some (.ack 0 0 []) ∧
      decodeTableWord 40 0x00AA = some (.unknown 0x00 0 0 []) := by decide
/-- The length is bits 31..16 and the checksum bits 39..32 of a word (R81); a payload above them is 0; noise and a length above
CAPACITY are no packet. -/
theorem test_table_words_fields :
    decodeTableWord 40 0x5A000207AA = some (.unknown 0x07 2 0x5A [0x00, 0x00]) ∧ decodeTableWord 40 0x04AB = none ∧
      decodeTableWord 40 0x00040101AA = none := by decide

/-! ### The instructions (95_test_vectors.md DV1 to DV20), and each as the first instruction after reset -/

/-- DV3, DV4: gated, and nothing written. -/
theorem test_act1 :
    seen (exec (.act1 0 0 []) State.reset) = some (false, [], [.completed 0x00]) ∧
      seen (exec (.act1 0 0 []) (debugOn State.reset)) = some (true, [], [.completed 0x01]) := by decide
theorem test_act1_first : seen (step (State.reset.withFetchWord 40 0x01AA)) = some (false, [], [.completed 0x00]) := by decide
/-- DV5, DV6. -/
theorem test_act2 :
    seen (exec (.act2 0 0 []) State.reset) = some (false, [], [.completed 0x00]) ∧
      seen (exec (.act2 2 0 [0xDE, 0xAD]) (debugOn State.reset)) = some (true, [], [.completed 0x02]) := by decide
theorem test_act2_first : seen (step (State.reset.withFetchWord 40 0x02AA)) = some (false, [], [.completed 0x00]) := by decide
/-- DV7, DV8. -/
theorem test_act3 :
    seen (exec (.act3 1 0 [0xFF]) State.reset) = some (false, [], [.completed 0x00]) ∧
      seen (exec (.act3 0 0 []) (debugOn State.reset)) = some (true, [], [.completed 0x03]) := by decide
theorem test_act3_first : seen (step (State.reset.withFetchWord 40 0x03AA)) = some (false, [], [.completed 0x00]) := by decide
/-- DV10, DV19: acknowledged in either mode, payload and checksum ignored. -/
theorem test_dbgOn :
    seen (exec (.dbgOn 0 0 []) (debugOn State.reset)) = some (true, [0xAA, 0x06, 0x00, 0x00, 0x00], [.completed 0x04]) ∧
      seen (exec (.dbgOn 2 0x99 [0x12, 0x34]) State.reset) =
        some (true, [0xAA, 0x06, 0x00, 0x00, 0x00], [.completed 0x04]) := by decide
/-- DV9. -/
theorem test_dbgOn_first :
    seen (step (State.reset.withFetchWord 40 0x04AA)) = some (true, [0xAA, 0x06, 0x00, 0x00, 0x00], [.completed 0x04]) := by
  decide
/-- DV12. -/
theorem test_dbgOff :
    seen (exec (.dbgOff 0 0 []) (debugOn State.reset)) = some (false, [0xAA, 0x06, 0x00, 0x00, 0x00], [.completed 0x05]) := by
  decide
/-- DV11. -/
theorem test_dbgOff_first :
    seen (step (State.reset.withFetchWord 40 0x05AA)) = some (false, [0xAA, 0x06, 0x00, 0x00, 0x00], [.completed 0x05]) := by
  decide
/-- DV13. -/
theorem test_ack : seen (exec (.ack 0 0 []) (debugOn State.reset)) = some (true, [], [.completed 0x00]) := by decide
theorem test_ack_first : seen (step (State.reset.withFetchWord 40 0x06AA)) = some (false, [], [.completed 0x00]) := by decide
/-- DV2, DV16. -/
theorem test_unknown :
    seen (exec (.unknown 0x00 0 0 []) (debugOn State.reset)) = some (true, [], [.completed 0x00]) ∧
      seen (exec (.unknown 0xAA 0 0 []) (debugOn State.reset)) = some (true, [], [.completed 0x00]) := by decide
/-- DV17, with a payload of two zeros. -/
theorem test_unknown_first :
    seen (step (State.reset.withFetchWord 40 0x02FFAA)) = some (false, [], [.completed 0x00]) := by decide

/-! ### Micro-steps of the framer -/

/-- 95_test_vectors.md F1. -/
theorem test_idle_empty : framed (step (idleWith [])) = some (.idle, [], [.pending]) := by decide
/-- 40_framer.md R103: one byte, and the call goes on. -/
theorem test_idle_noise : framed (step (idleWith [0x00, 0xFF, 0xAB])) = some (.idle, [0xFF, 0xAB], []) := by decide
/-- 40_framer.md R104: no look ahead. -/
theorem test_idle_magic : framed (step (idleWith [0xAA, 0x04])) = some (.rdHdr, [0x04], []) := by decide
/-- 95_test_vectors.md E1. -/
theorem test_idle_short :
    framed (step (shortRead 0 (idleWith [0xAA]))) = some (.idle, [0xAA], [.error (.transportReadFailure 1 0)]) := by decide
/-- 95_test_vectors.md F5. -/
theorem test_hdr_wait : framed (step (hdrWith [0x04, 0x00, 0x00])) = some (.rdHdr, [0x04, 0x00, 0x00], [.pending]) := by decide
/-- 40_framer.md R107's example. -/
theorem test_hdr_assemble :
    (answered (step (hdrWith [0x01, 0x02, 0x00, 0x5A, 0xDE, 0xAD]))).map
      (fun t => (t.hdrCmd, t.hdrLen, t.hdrChk)) = some (0x01, 2, 0x5A) ∧
      framed (step (hdrWith [0x01, 0x02, 0x00, 0x5A, 0xDE, 0xAD])) = some (.rdPay, [0xDE, 0xAD], []) := by decide
/-- 95_test_vectors.md E2: the two bytes are lost, the header is not written. -/
theorem test_hdr_short :
    framed (step (shortRead 2 (hdrWith [0x04, 0x00, 0x00, 0x00]))) =
        some (.idle, [0x00, 0x00], [.error (.transportReadFailure 4 2)]) ∧
      (answered (step (shortRead 2 (hdrWith [0x04, 0x00, 0x00, 0x00])))).map State.hdrCmd = some 0x00 := by decide
/-- 40_framer.md R109's example. -/
theorem test_pay_zero :
    seen (step (base .rdPay 0x04 0 0 [])) = some (true, [0xAA, 0x06, 0x00, 0x00, 0x00], [.completed 0x04]) := by decide
/-- 95_test_vectors.md L7, and E5's first call under Drain. -/
theorem test_pay_oversize :
    framed (step (base .rdPay 0x01 1025 0 [])) = some (.idle, [], [.error (.frameTooLarge 1025)]) ∧
      (answered (step { base .rdPay 0x01 1025 0 [] with cfg := { Params.default with policy := .drain } })).map
        (fun t => (t.fsm, t.drainRem)) = some (.drain, 1025) := by decide
/-- 40_framer.md R111's example. -/
theorem test_pay_wait : framed (step (base .rdPay 0x02 3 0 [0x01, 0x02])) = some (.rdPay, [0x01, 0x02], [.pending]) := by decide
/-- 40_framer.md R112's example, with a byte after the packet. -/
theorem test_pay_read :
    framed (step (base .rdPay 0x02 2 0 [0xDE, 0xAD, 0xAA])) = some (.idle, [0xAA], [.completed 0x00]) ∧
      (answered (step (base .rdPay 0x02 2 0 [0xDE, 0xAD, 0xAA]))).map State.rxbuf = some [(0, 0xDE), (1, 0xAD)] := by decide
/-- 95_test_vectors.md E3. -/
theorem test_pay_short :
    framed (step (shortRead 1 (base .rdPay 0x02 3 0 [0x01, 0x02, 0x03]))) =
        some (.idle, [0x02, 0x03], [.error (.transportReadFailure 3 1)]) ∧
      (answered (step (shortRead 1 (base .rdPay 0x02 3 0 [0x01, 0x02, 0x03])))).map State.rxbuf = some [(0, 0x01)] := by decide
/-- 40_framer.md R114's example. -/
theorem test_drain_wait : framed (step (drainWith 1020 [])) = some (.drain, [], [.pending]) := by decide
/-- 40_framer.md R115's example. -/
theorem test_drain_discard :
    (answered (step (drainWith 1025 [0xAA, 0x04, 0x00, 0x00, 0x00]))).map (fun t => (t.fsm, t.drainRem, t.rxq, t.inCall)) =
      some (.drain, 1020, [], true) := by decide
/-- 40_framer.md R115: never past drain_rem. -/
theorem test_drain_ends : framed (step (drainWith 2 [0x01, 0x02, 0xAA])) = some (.idle, [0xAA], []) := by decide
/-- 95_test_vectors.md E6. -/
theorem test_drain_short :
    framed (step (shortRead 2 (drainWith 10 [1, 2, 3, 4]))) = some (.idle, [3, 4], [.error (.transportReadFailure 4 2)]) ∧
      (answered (step (shortRead 2 (drainWith 10 [1, 2, 3, 4])))).map State.drainRem = some 0 := by decide
/-- 40_framer.md R117's example, and 95_test_vectors.md T5. -/
theorem test_stall :
    (answered (step (withStall 1 { hdrWith [] with stallAge := 1 }))).map (fun t => (t.fsm, t.stallAge, t.stops)) =
        some (.idle, 2, [.error (.transportStall 2)]) ∧
      (answered (step (withStall 1 (idleWith [])))).map (fun t => (t.stallAge, t.stops)) = some (0, [.pending]) := by decide

/-- 40_framer.md R100's example. -/
theorem test_call_completes :
    ∃ t, processOnce 9 (idleWith [0xAA, 0x04, 0x00, 0x00, 0x00]) = .next (some (.completed 0x04), t) ∧ t.debugMode = true :=
  ⟨_, rfl, rfl⟩
/-- rxbuf holds CAPACITY bytes right after reset: any of them is read, the last two here (10_state.md R39, R48). -/
theorem test_rxbuf_after_reset : ∃ bs, State.reset.memRead 1022 2 = .ok bs ∧ bs.length = 2 := ⟨_, rfl, rfl⟩
/-- 00_scope.md R19: a written byte is read back among bytes nothing has written, and no access leaves 0..CAPACITY-1. -/
theorem test_rxbuf_bounds :
    State.reset.memRead 1023 2 = .error (.rxbufOutOfBounds 1023 2) ∧
      State.reset.memWrite 1024 [0x00] = .error (.rxbufOutOfBounds 1024 1) ∧
      (State.reset.setRxbuf [(3, 0x07)]).memRead 3 1 = .ok [0x07] ∧ (State.reset.setRxbuf [(3, 0x07)]).rxByte 3 = 0x07 := by
  decide

/-! ### Cases that meet the hypotheses of the statements -/

theorem test_hyp_between_calls : State.reset.inCall = false := by decide
theorem test_hyp_in_a_call : { State.reset with inCall := true }.inCall = true := by decide
/-- Both sides of CAPACITY: 1025 of 1024, and 2 and 3 of 2. -/
theorem test_hyp_oversized :
    Params.default.capacity < (assembleLen 0x01 0x04).toNat ∧ (assembleLen 0x00 0x04).toNat ≤ Params.default.capacity ∧
      { Params.default with capacity := 2 }.capacity < (assembleLen 0x03 0x00).toNat ∧
      (assembleLen 0x02 0x00).toNat ≤ { Params.default with capacity := 2 }.capacity ∧
      (assembleLen 0x02 0x00).toNat ≤ ([0x11, 0x22] : List Byte).length := by decide
/-- Accesses that end at CAPACITY and that end one byte past it. -/
theorem test_hyp_access :
    1022 + 2 ≤ State.reset.cfg.capacity ∧ State.reset.cfg.capacity < 1023 + 2 ∧
      1022 + ([1, 2] : List Byte).length ≤ State.reset.cfg.capacity ∧
      State.reset.cfg.capacity < 1023 + ([1, 2] : List Byte).length := by decide
/-- A packet of each row, the last as long as CAPACITY. -/
theorem test_hyp_wf :
    (Instr.act1 0 0 []).wf Params.default = true ∧ (Instr.act2 1 0 [9]).wf Params.default = true ∧
      (Instr.act3 0 7 []).wf Params.default = true ∧ (Instr.dbgOn 0 0 []).wf Params.default = true ∧
      (Instr.dbgOff 0 0 []).wf Params.default = true ∧ (Instr.ack 0 0 []).wf Params.default = true ∧
      (Instr.unknown 0xFF 2 0 [1, 2]).wf { Params.default with capacity := 2 } = true := by decide
/-- A list of bytes that decodes, with a byte left over. -/
theorem test_hyp_decodes :
    decode Params.default [0xAA, 0x03, 0x01, 0x00, 0x00, 0xFF, 0x11] = .ok (.act3 1 0x00 [0xFF], [0x11]) := by decide
/-- The clauses of the dispatch frame: a command that is no toggle, and a listed toggle. -/
theorem test_hyp_dispatch :
    (∃ t, exec (.unknown 0x07 0 0 []) State.reset = .next t) ∧ (Instr.unknown 0x07 0 0 []).cmd ≠ 0x04 ∧
      (Instr.unknown 0x07 0 0 []).cmd ≠ 0x05 ∧ (∃ t, exec (.dbgOff 0 0 []) State.reset = .next t) ∧
      (Instr.dbgOff 0 0 []).cmdUnlisted = true ∧ (Instr.dbgOff 0 0 []).cmd = 0x05 :=
  ⟨⟨_, rfl⟩, by decide, by decide, ⟨_, rfl⟩, by decide, by decide⟩
theorem test_hyp_idle_empty : (idleWith []).fsm = .idle ∧ (idleWith []).openMicro.rxAvail = 0 := by decide
theorem test_hyp_idle_noise :
    (idleWith [0xAB]).fsm = .idle ∧ 1 ≤ (idleWith [0xAB]).openMicro.rxAvail ∧ delivered (idleWith [0xAB]).turn 1 = 1 ∧
      (idleWith [0xAB]).openMicro.rxq = 0xAB :: [] ∧ (0xAB : Byte) ≠ (idleWith [0xAB]).cfg.magic := by decide
theorem test_hyp_idle_magic :
    (idleWith [0xAA]).fsm = .idle ∧ 1 ≤ (idleWith [0xAA]).openMicro.rxAvail ∧ delivered (idleWith [0xAA]).turn 1 = 1 ∧
      (idleWith [0xAA]).openMicro.rxq = (idleWith [0xAA]).cfg.magic :: [] := by decide
theorem test_hyp_idle_short :
    (shortRead 0 (idleWith [0xAA])).fsm = .idle ∧ 1 ≤ (shortRead 0 (idleWith [0xAA])).openMicro.rxAvail ∧
      delivered (shortRead 0 (idleWith [0xAA])).turn 1 = 0 := by decide
/-- All four ways of starving, at the edge: nothing, 3 of 4, 1 of 2, nothing of a drain. -/
theorem test_hyp_starved :
    Starved (idleWith []).openMicro ∧ Starved (hdrWith [1, 2, 3]).openMicro ∧
      Starved (base .rdPay 0x01 2 0 [1]).openMicro ∧ Starved (drainWith 5 []).openMicro := by
  unfold Starved
  decide
/-- The three clauses of PendingStop: no option, IDLE, L = 1 at ages 0 and 1. -/
theorem test_hyp_pending_stop :
    (hdrWith []).cfg.stallLimit = none ∧ (withStall 1 (idleWith [])).fsm = .idle ∧
      (withStall 1 (hdrWith [])).cfg.stallLimit = some 1 ∧ (withStall 1 (hdrWith [])).fsm ≠ .idle ∧
      (withStall 1 (hdrWith [])).stallAge + 1 ≤ 1 ∧ 1 < (withStall 1 { hdrWith [] with stallAge := 1 }).stallAge + 1 := by
  decide
theorem test_hyp_header :
    (hdrWith [1, 2, 0, 4]).fsm = .rdHdr ∧ 4 ≤ (hdrWith [1, 2, 0, 4]).openMicro.rxAvail ∧
      delivered (hdrWith [1, 2, 0, 4]).turn 4 = 4 ∧ (hdrWith [1, 2, 0, 4]).openMicro.rxq = 1 :: 2 :: 0 :: 4 :: [] := by decide
theorem test_hyp_header_short :
    (shortRead 3 (hdrWith [1, 2, 0, 4])).fsm = .rdHdr ∧ 4 ≤ (shortRead 3 (hdrWith [1, 2, 0, 4])).openMicro.rxAvail ∧
      delivered (shortRead 3 (hdrWith [1, 2, 0, 4])).turn 4 < 4 := by decide
theorem test_hyp_zero_length : (base .rdPay 0x04 0 0 []).fsm = .rdPay ∧ (base .rdPay 0x04 0 0 []).hdrLen = 0 := by decide
theorem test_hyp_oversized_packet :
    (base .rdPay 0x01 1025 0 []).fsm = .rdPay ∧
      (base .rdPay 0x01 1025 0 []).cfg.capacity < (base .rdPay 0x01 1025 0 []).hdrLen.toNat := by decide
theorem test_hyp_payload :
    let s := base .rdPay 0x01 2 0 [0xAA, 0xBB, 0xCC]
    s.fsm = .rdPay ∧ 1 ≤ s.hdrLen.toNat ∧ s.hdrLen.toNat ≤ s.cfg.capacity ∧ s.hdrLen.toNat ≤ s.openMicro.rxAvail ∧
      delivered s.turn s.hdrLen.toNat = s.hdrLen.toNat := by decide
theorem test_hyp_payload_short :
    let s := shortRead 1 (base .rdPay 0x01 2 0 [0xAA, 0xBB])
    s.fsm = .rdPay ∧ 1 ≤ s.hdrLen.toNat ∧ s.hdrLen.toNat ≤ s.cfg.capacity ∧ s.hdrLen.toNat ≤ s.openMicro.rxAvail ∧
      delivered s.turn s.hdrLen.toNat < s.hdrLen.toNat := by decide
theorem test_hyp_drain :
    let s := drainWith 2 [1, 2, 3]
    s.fsm = .drain ∧ 1 ≤ s.drainRem.toNat ∧ 1 ≤ s.openMicro.rxAvail ∧ 2 = min s.openMicro.rxAvail s.drainRem.toNat ∧
      delivered s.turn 2 = 2 := by decide
theorem test_hyp_drain_short :
    let s := shortRead 1 (drainWith 2 [1, 2, 3])
    s.fsm = .drain ∧ 1 ≤ s.openMicro.rxAvail ∧ 2 = min s.openMicro.rxAvail s.drainRem.toNat ∧ delivered s.turn 2 < 2 := by
  decide
theorem test_hyp_step_runs :
    let s := base .rdPay 0x01 2 0x5A [0xDE, 0xAD, 0xAA]
    s.fsm = .rdPay ∧
      decode s.cfg (s.cfg.magic :: s.hdrCmd :: lenLow s.hdrLen :: lenHigh s.hdrLen :: s.hdrChk :: s.openMicro.rxq) =
        .ok (.act1 2 0x5A [0xDE, 0xAD], [0xAA]) ∧
      s.hdrLen.toNat ≤ s.openMicro.rxAvail ∧ delivered s.turn s.hdrLen.toNat = s.hdrLen.toNat := by decide
theorem test_hyp_packet_on_the_wire :
    let s := idleWith [0xAA, 0x02, 0x01, 0x00, 0x00, 0x77, 0x99]
    s.fsm = .idle ∧ s.isQuiet ∧ s.cfg.rxDepth = none ∧ (Instr.act2 1 0 [0x77]).wf s.cfg = true ∧
      s.rxq = encode s.cfg (.act2 1 0 [0x77]) ++ [0x99] :=
  ⟨rfl, ⟨rfl, rfl⟩, rfl, by decide, by decide⟩

/-- A waiting packet of a stall build, the second of its Pending calls ahead. -/
def waiting : State :=
  withStall 2 { base .rdPay 0x01 3 0 [0x11] with
    rxbuf := [(0, 0x01), (5, 0x02)]
    stallAge := 1 }

/-- A drain under way. -/
def draining : State := drainWith 7 [0x11]

theorem test_hyp_inv_waiting : Inv waiting :=
  ⟨by decide, by decide, by decide, by decide, by decide, (by intro l h; cases h; decide), by decide, by decide⟩
theorem test_hyp_inv_draining : Inv draining :=
  ⟨by decide, by decide, by decide, by decide, by decide, (by intro l h; cases h), by decide, by decide⟩
theorem test_hyp_inv_steps : (∃ t, step waiting = .next t) ∧ ∃ t, step draining = .next t := ⟨⟨_, rfl⟩, ⟨_, rfl⟩⟩
theorem test_hyp_bounded_call : Inv draining ∧ draining.tail = .quiet := ⟨test_hyp_inv_draining, rfl⟩
/-- A call that has ended, and one that still runs. -/
theorem test_hyp_call :
    (∃ t, runCall 1 (idleWith []) = .next (some .pending, t)) ∧ ∃ t, runCall 1 (idleWith [0x00]) = .next (none, t) :=
  ⟨⟨_, rfl⟩, ⟨_, rfl⟩⟩
theorem test_hyp_error :
    ∃ t, step (base .rdPay 0x01 1025 0 []) = .next t ∧
      t.stops = (base .rdPay 0x01 1025 0 []).stops ++ [.error (.frameTooLarge 1025)] := ⟨_, rfl, by decide⟩
/-- Both toggles change the flag. -/
theorem test_hyp_toggles :
    (∃ t, step (base .rdPay 0x04 0 0 []) = .next t ∧ t.debugMode ≠ (base .rdPay 0x04 0 0 []).debugMode) ∧
      ∃ t, step (debugOn (base .rdPay 0x05 0 0 [])) = .next t ∧
        t.debugMode ≠ (debugOn (base .rdPay 0x05 0 0 [])).debugMode := ⟨⟨_, rfl, by decide⟩, ⟨_, rfl, by decide⟩⟩
theorem test_hyp_ack_written :
    (base .rdPay 0x05 0 0 []).hdrCmd = 0x05 ∧ ∃ t, step (base .rdPay 0x05 0 0 []) = .next t ∧
      t.stops = (base .rdPay 0x05 0 0 []).stops ++ [.completed 0x05] := ⟨rfl, _, rfl, by decide⟩
theorem test_hyp_buffer_written :
    ∃ t, step (base .rdPay 0x02 2 0 [0xDE, 0xAD]) = .next t ∧
      Memory.load t.rxbuf 1 ≠ Memory.load (base .rdPay 0x02 2 0 [0xDE, 0xAD]).rxbuf 1 := ⟨_, rfl, by decide⟩
theorem test_hyp_header_written :
    ∃ t, step (hdrWith [1, 2, 0, 4]) = .next t ∧
      (t.hdrCmd, t.hdrLen, t.hdrChk) ≠
        ((hdrWith [1, 2, 0, 4]).hdrCmd, (hdrWith [1, 2, 0, 4]).hdrLen, (hdrWith [1, 2, 0, 4]).hdrChk) := ⟨_, rfl, by decide⟩
theorem test_hyp_checksum :
    (base .rdPay 0x04 0 0xFF []).cfg.action = .commandCode ∧ ∃ t, step (base .rdPay 0x04 0 0xFF []) = .next t :=
  ⟨rfl, _, rfl⟩
/-- IDLE states that differ in the header registers and rxbuf; RD_PAY states that differ in rxbuf. -/
theorem test_hyp_unread :
    SameButUnread (base .idle 0x01 2 3 [0xAA]) { idleWith [0xAA] with rxbuf := [(4, 0x09)] } ∧
      SameButUnread (base .rdPay 0x01 1 0 [0x10]) { base .rdPay 0x01 1 0 [0x10] with rxbuf := [(0, 0x09)] } ∧
      ∃ t, step (base .idle 0x01 2 3 [0xAA]) = .next t :=
  ⟨⟨by decide, by decide⟩, ⟨by decide, by decide⟩, ⟨_, rfl⟩⟩
theorem test_hyp_noise :
    let s := idleWith [0x11, 0x22, 0xAA]
    s.fsm = .idle ∧ s.isQuiet ∧ s.cfg.rxDepth = none ∧ (∀ x ∈ (0x11 : Byte) :: [0x22], x ≠ s.cfg.magic) ∧
      s.rxq = 0x11 :: [0x22] ++ [0xAA] := ⟨rfl, ⟨rfl, rfl⟩, rfl, by decide, rfl⟩
theorem test_hyp_drain_counts :
    draining.fsm = .drain ∧ ∃ t, step draining = .next t ∧ ∀ e, t.stops ≠ draining.stops ++ [.error e] :=
  ⟨rfl, _, rfl, by intro e h; cases h⟩
theorem test_hyp_held :
    let s := hdrWith [1, 2, 3]
    s.cfg.stallLimit = none ∧ s.isQuiet ∧ Starved s :=
  ⟨rfl, ⟨rfl, rfl⟩, by unfold Starved; decide⟩
/-- L = 0 and L = 2. -/
theorem test_hyp_stall_timer :
    let s := withStall 0 (hdrWith [])
    let r := withStall 2 (drainWith 5 [])
    (s.cfg.stallLimit = some 0 ∧ s.isQuiet ∧ Starved s ∧ s.fsm ≠ .idle ∧ s.stallAge = 0) ∧
      (r.cfg.stallLimit = some 2 ∧ r.isQuiet ∧ Starved r ∧ r.fsm ≠ .idle ∧ r.stallAge = 0) :=
  ⟨⟨rfl, ⟨rfl, rfl⟩, by unfold Starved; decide, by decide, rfl⟩, ⟨rfl, ⟨rfl, rfl⟩, by unfold Starved; decide, by decide, rfl⟩⟩
theorem test_hyp_beyond_depth :
    let s := { base .rdPay 0x01 3 0 [1, 2, 3] with cfg := { Params.default with rxDepth := some 2 } }
    s.cfg.stallLimit = none ∧ s.cfg.rxDepth = some 2 ∧ s.fsm = .rdPay ∧ 2 < s.hdrLen.toNat ∧ s.hdrLen.toNat ≤ s.cfg.capacity ∧
      ∃ t, run 1 s = .next t := ⟨rfl, rfl, rfl, by decide, by decide, _, rfl⟩

/-- DBG_ON in one arrival, and in two with a call that starves between them. -/
def oneChunk : List Turn := [⟨[0xAA, 0x04, 0x00, 0x00, 0x00], none⟩]
def twoChunks : List Turn := [⟨[0xAA, 0x04], none⟩, ⟨[], none⟩, ⟨[0x00, 0x00, 0x00], none⟩]

theorem test_hyp_chunks :
    State.reset.tail = .quiet ∧ State.reset.cfg.stallLimit = none ∧ allDeliver oneChunk ∧ allDeliver twoChunks ∧
      arrivals oneChunk = arrivals twoChunks ∧ (∃ t, Settled 4 { State.reset with turns := oneChunk } t) ∧
      (∃ t, Settled 5 { State.reset with turns := twoChunks } t) ∧ ∃ u, run 2 { State.reset with turns := twoChunks } = .next u :=
  ⟨rfl, rfl, by unfold allDeliver; decide, by unfold allDeliver; decide, by decide,
    ⟨_, by decide, rfl, by decide, by decide, by decide⟩, ⟨_, by decide, rfl, by decide, by decide, by decide⟩, ⟨_, rfl⟩⟩

end Sys2Proof.Tests
end

/-! The host's read of debug_mode (10_state.md R49). -/

namespace Sys2Proof.Machine

/-- Settles O2: `isDebugMode` branches on `inCall` alone, and the branch between calls answers the flag. -/
theorem isDebugModeReadsTheFlagBetweenCalls : Obligations.IsDebugModeReadsTheFlagBetweenCalls := by
  intro s betweenCalls
  simp [isDebugMode, betweenCalls]

end Sys2Proof.Machine

/-! The Outcome as bits (30_encoding.md R94): the tag tells the constructor, the other two fields its argument. -/

namespace Sys2Proof.Machine

theorem ErrKind.code_injective : Function.Injective ErrKind.code := by
  intro k k'
  cases k <;> cases k' <;> decide

@[simp] theorem CallOutcome.word_pending : CallOutcome.pending.word = ⟨0, 0x00, 0⟩ := rfl

@[simp] theorem CallOutcome.word_completed (r : Byte) : (CallOutcome.completed r).word = ⟨1, r, 0⟩ := rfl

@[simp] theorem CallOutcome.word_error (k : ErrKind) : (CallOutcome.error k).word = ⟨2, 0x00, k.code⟩ := rfl

theorem CallOutcome.word_tag_ne_three (o : CallOutcome) : o.word.tag ≠ 3 := by
  cases o <;> simp

/-- Unlike tags settle unlike constructors; alike, the result or the kind's code carries the argument. -/
theorem CallOutcome.word_injective : Function.Injective CallOutcome.word := by
  intro o o' h
  have sameTag : o.word.tag = o'.word.tag := congrArg OutcomeWord.tag h
  cases o <;> cases o' <;> simp at sameTag
  case pending.pending => rfl
  case completed.completed r r' => exact congrArg CallOutcome.completed (congrArg OutcomeWord.result h)
  case error.error k k' =>
    exact congrArg CallOutcome.error (ErrKind.code_injective (congrArg OutcomeWord.kind h))

/-- Settles O4: the fields are the equations of `word`; the tag and injectivity clauses follow by constructors. -/
theorem outcomeBits : Obligations.OutcomeBits :=
  ⟨CallOutcome.word_pending, CallOutcome.word_completed, CallOutcome.word_error _, CallOutcome.word_error _,
    CallOutcome.word_error _, CallOutcome.word_tag_ne_three, fun _ _ h => CallOutcome.word_injective h⟩

end Sys2Proof.Machine

/-! The length field and its two bytes (30_encoding.md R80, R82). -/

namespace Sys2Proof

/-- The zero-extended shift and or of R82 are the concatenation of the two bytes, which the library knows as such. -/
theorem assembleLen_eq_append (lo hi : Byte) : assembleLen lo hi = hi ++ lo := by
  rw [BitVec.append_def, BitVec.shiftLeftZeroExtend_eq, BitVec.setWidth'_eq, BitVec.or_comm, assembleLen]

theorem assembleLen_toNat (lo hi : Byte) : (assembleLen lo hi).toNat = lo.toNat + 256 * hi.toNat := by
  rw [assembleLen_eq_append, BitVec.toNat_append, ← Nat.shiftLeft_add_eq_or_of_lt lo.isLt, Nat.shiftLeft_eq]
  omega

@[simp] theorem assembleLen_zero : assembleLen 0x00#8 0x00#8 = 0x0000#16 := rfl

@[simp] theorem assembleLen_lenLow_lenHigh (len : Half) : assembleLen (lenLow len) (lenHigh len) = len := by
  rw [assembleLen_eq_append, lenLow, lenHigh, BitVec.extractLsb'_append_extractLsb'_eq_extractLsb' (by rfl)]
  exact BitVec.extractLsb'_eq_self

/-- Settles O5: an assembled length is the high byte in front of the low byte. -/
theorem lengthIsLowByteFirst : Obligations.LengthIsLowByteFirst :=
  ⟨assembleLen_toNat, by decide, assembleLen_lenLow_lenHigh⟩

end Sys2Proof

/-! The acknowledgement frame read as a packet (30_encoding.md R89). -/

namespace Sys2Proof

@[simp] theorem decode_magic (p : Params) (rest : List Byte) :
    decode p (p.magic :: rest) = decodeAfterMagic p rest := if_pos rfl

/-- A header of length 0 is a packet in every build, and all that follows it is left over. -/
theorem decodeAfterMagic_of_length_zero (p : Params) (cmd chk : Byte) (rest : List Byte) :
    decodeAfterMagic p (cmd :: 0x00 :: 0x00 :: chk :: rest) = .ok (lookup cmd 0 chk [], rest) := by
  simp [decodeAfterMagic]

end Sys2Proof

namespace Sys2Proof.Machine

theorem decode_ackFrame {p : Params} (ackRow : p.ackCmd = 0x06) :
    decode p (ackFrame p) = .ok (.ack 0 0x00 [], []) := by
  rw [ackFrame, decode_magic, decodeAfterMagic_of_length_zero, ackRow]
  rfl

/-- Settles O6: the frame is a header of length 0, and the default ACK_CMD selects the row ACK. -/
theorem ackFrameIsAPacket : Obligations.AckFrameIsAPacket :=
  ⟨rfl, fun _ => rfl, decode_ackFrame rfl, by decide⟩

end Sys2Proof.Machine

/-! The guards of the table (40_framer.md R101), row by row: under a row's guard a micro-step is that row's rule. -/

namespace Sys2Proof.Machine

/-- Each way of starving selects the waiting rule of its row, and all four rules are the same pending stop. -/
theorem step_eq_pendingStop {s : State} (starved : Starved s.openMicro) : step s = .next s.openMicro.pendingStop := by
  rcases starved with ⟨fsm, empty⟩ | ⟨fsm, few⟩ | ⟨fsm, nonempty, fits, few⟩ | ⟨fsm, empty⟩
  · exact step_rule (r := .idleEmpty) (by simp only [selectRule, fsm, if_pos empty])
  · exact step_rule (r := .hdrWait) (by simp only [selectRule, fsm, if_pos few])
  · exact step_rule (r := .payWait) (by
      simp only [selectRule, fsm, if_neg (Nat.ne_of_gt nonempty), if_neg (Nat.not_lt.2 fits), if_pos few])
  · exact step_rule (r := .drainWait) (by simp only [selectRule, fsm, if_pos empty])

section Idle
variable {s : State} (idle : s.fsm = .idle) (avail : 1 ≤ s.openMicro.rxAvail)
include idle avail

theorem step_eq_idleShort (short : delivered s.turn 1 = 0) : step s = idleShort s.turn s.openMicro :=
  step_rule (r := .idleShort) (by
    simp only [selectRule, State.openMicro_fsm, idle, if_neg (Nat.ne_of_gt avail), if_pos short])

theorem step_eq_idleMagic (full : delivered s.turn 1 = 1) (magic : s.openMicro.rxq.head? = some s.cfg.magic) :
    step s = idleMagic s.turn s.openMicro :=
  step_rule (r := .idleMagic) (by
    simp only [selectRule, State.openMicro_fsm, State.openMicro_cfg, idle, if_neg (Nat.ne_of_gt avail), full,
      if_neg Nat.one_ne_zero, if_pos magic])

theorem step_eq_idleNoise (full : delivered s.turn 1 = 1) (noise : s.openMicro.rxq.head? ≠ some s.cfg.magic) :
    step s = idleNoise s.turn s.openMicro :=
  step_rule (r := .idleNoise) (by
    simp only [selectRule, State.openMicro_fsm, State.openMicro_cfg, idle, if_neg (Nat.ne_of_gt avail), full,
      if_neg Nat.one_ne_zero, if_neg noise])

end Idle

section Header
variable {s : State} (rdHdr : s.fsm = .rdHdr) (avail : 4 ≤ s.openMicro.rxAvail)
include rdHdr avail

theorem step_eq_hdrShort (short : delivered s.turn 4 < 4) : step s = hdrShort s.turn s.openMicro :=
  step_rule (r := .hdrShort) (by
    simp only [selectRule, State.openMicro_fsm, rdHdr, if_neg (Nat.not_lt.2 avail), if_pos short])

theorem step_eq_hdrAssemble (full : delivered s.turn 4 = 4) : step s = hdrAssemble s.turn s.openMicro :=
  step_rule (r := .hdrAssemble) (by
    simp only [selectRule, State.openMicro_fsm, rdHdr, if_neg (Nat.not_lt.2 avail), full, if_neg (Nat.lt_irrefl 4)])

end Header

section Payload
variable {s : State} (rdPay : s.fsm = .rdPay)
include rdPay

theorem step_eq_payZero (zero : s.hdrLen.toNat = 0) : step s = payZero s.openMicro :=
  step_rule (r := .payZero) (by
    simp only [selectRule, State.openMicro_fsm, State.openMicro_hdrLen, rdPay, if_pos zero])

theorem step_eq_payOversize (tooLong : s.cfg.capacity < s.hdrLen.toNat) : step s = payOversize s.openMicro :=
  step_rule (r := .payOversize) (by
    simp only [selectRule, State.openMicro_fsm, State.openMicro_hdrLen, State.openMicro_cfg, rdPay,
      if_neg (Nat.ne_zero_of_lt tooLong), if_pos tooLong])

variable (nonempty : 1 ≤ s.hdrLen.toNat) (fits : s.hdrLen.toNat ≤ s.cfg.capacity)
  (avail : s.hdrLen.toNat ≤ s.openMicro.rxAvail)
include nonempty fits avail

theorem step_eq_payShort (short : delivered s.turn s.hdrLen.toNat < s.hdrLen.toNat) :
    step s = payShort s.turn s.openMicro :=
  step_rule (r := .payShort) (by
    simp only [selectRule, State.openMicro_fsm, State.openMicro_hdrLen, State.openMicro_cfg, rdPay,
      if_neg (Nat.ne_of_gt nonempty), if_neg (Nat.not_lt.2 fits), if_neg (Nat.not_lt.2 avail), if_pos short])

theorem step_eq_payRead (full : delivered s.turn s.hdrLen.toNat = s.hdrLen.toNat) :
    step s = payRead s.turn s.openMicro :=
  step_rule (r := .payRead) (by
    simp only [selectRule, State.openMicro_fsm, State.openMicro_hdrLen, State.openMicro_cfg, rdPay,
      if_neg (Nat.ne_of_gt nonempty), if_neg (Nat.not_lt.2 fits), if_neg (Nat.not_lt.2 avail), full,
      if_neg (Nat.lt_irrefl _)])

end Payload

section Drain
variable {s : State} (drain : s.fsm = .drain) (avail : 1 ≤ s.openMicro.rxAvail)
include drain avail

theorem step_eq_drainShort (short : delivered s.turn s.openMicro.drainCount < s.openMicro.drainCount) :
    step s = drainShort s.turn s.openMicro :=
  step_rule (r := .drainShort) (by
    simp only [selectRule, State.openMicro_fsm, drain, if_neg (Nat.ne_of_gt avail), if_pos short])

theorem step_eq_drainDiscard (full : delivered s.turn s.openMicro.drainCount = s.openMicro.drainCount) :
    step s = drainDiscard s.turn s.openMicro :=
  step_rule (r := .drainDiscard) (by
    simp only [selectRule, State.openMicro_fsm, drain, if_neg (Nat.ne_of_gt avail), full, if_neg (Nat.lt_irrefl _)])

end Drain

end Sys2Proof.Machine

/-! The buffer after the first bytes of a queue are stored at index 0 (20_memory.md R61). -/

namespace Sys2Proof.Machine

theorem State.rxByte_storeAll_take {s : State} {q : List Byte} {k a : Nat} (inQueue : k ≤ q.length) (stored : a < k) :
    some ({ s with rxbuf := s.rxbuf.storeAll 0 (q.take k) }.rxByte a) = q[a]? := by
  have : a < q.length := by omega
  simp [State.rxByte, Memory.byteAt_storeAll, stored, this]

theorem State.rxByte_storeAll_take_of_le {s : State} {q : List Byte} {k a : Nat} (beyond : k ≤ a) :
    { s with rxbuf := s.rxbuf.storeAll 0 (q.take k) }.rxByte a = s.rxByte a := by
  have outside : ¬ (0 ≤ a ∧ a < 0 + (q.take k).length) := by
    rw [List.length_take]
    omega
  rw [State.rxByte, Memory.byteAt_storeAll, if_neg outside, State.rxByte]

end Sys2Proof.Machine

/-! The payload of a packet that fits (40_framer.md R112, R113). -/

namespace Sys2Proof.Machine

/-- Settles O32: the row is PAY-READ, whose buffer is the old one with the payload stored at index 0. -/
theorem payloadIsBufferedAndDispatched : Obligations.PayloadIsBufferedAndDispatched := by
  intro s rdPay nonempty fits avail full
  have inQueue := avail.trans s.openMicro.rxAvail_le
  refine ⟨s.rxbuf.storeAll 0 (s.openMicro.rxq.take s.hdrLen.toNat), ?_,
    fun a ha => State.rxByte_storeAll_take inQueue ha, fun a ha => State.rxByte_storeAll_take_of_le ha⟩
  have answer := payRead_eq s.turn s.openMicro
  simp only [State.openMicro_hdrLen, State.openMicro_cfg, State.openMicro_hdrCmd, State.openMicro_hdrChk,
    State.openMicro_rxbuf] at answer
  exact (step_eq_payRead rdPay nonempty fits avail full).trans (answer fits avail full)

/-- Settles O33: the row is PAY-SHORT, whose buffer is the old one with the bytes delivered stored at index 0. -/
theorem payloadShortReadFails : Obligations.PayloadShortReadFails := by
  intro s rdPay nonempty fits avail short
  have inQueue := (short.le.trans avail).trans s.openMicro.rxAvail_le
  refine ⟨s.rxbuf.storeAll 0 (s.openMicro.rxq.take (delivered s.turn s.hdrLen.toNat)), ?_,
    fun a ha => State.rxByte_storeAll_take inQueue ha, fun a ha => State.rxByte_storeAll_take_of_le ha⟩
  have answer := payShort_eq s.turn s.openMicro
  simp only [State.openMicro_hdrLen, State.openMicro_cfg, State.openMicro_rxbuf] at answer
  rw [step_eq_payShort rdPay nonempty fits avail short, answer fits, ← State.openMicro_stops s]
  rfl

end Sys2Proof.Machine

/-! PendingStop and the starving rows (40_framer.md R102, R106, R111, R114, R117). -/

namespace Sys2Proof.Machine

@[simp] theorem State.pendingStop_rxq (s : State) : s.pendingStop.rxq = s.rxq := by
  obtain ⟨_, h⟩ | ⟨_, _, _, _, h⟩ | ⟨_, _, _, _, h⟩ := s.pendingStop_cases <;> simp [h]

/-- Settles O26: each way of starving selects a pending stop, and no pending stop reads. -/
theorem starvationConsumesNothing : Obligations.StarvationConsumesNothing :=
  fun s starved => ⟨step_eq_pendingStop starved, s.openMicro.pendingStop_rxq⟩

theorem State.pendingStop_of_no_timer {s : State} (h : s.cfg.stallLimit = none ∨ s.fsm = .idle) :
    s.pendingStop = s.stop .pending := by
  rw [State.pendingStop]
  split
  · rfl
  next l limit => exact if_pos (h.resolve_left (by simp [limit]))

theorem State.pendingStop_of_timer {s : State} {l : Nat} (limit : s.cfg.stallLimit = some l) (busy : s.fsm ≠ .idle) :
    s.pendingStop = s.ageStop l := by
  simp [State.pendingStop, limit, busy]

theorem State.clearDrain_eq (s : State) :
    s.clearDrain = { s with drainRem := if s.cfg.policy = .drain then 0 else s.drainRem } := by
  ext1 <;> simp [State.clearDrain_drainRem]

/-- Settles O27: the option and fsm say whether there is a timer, and the age against the limit whether it fires. -/
theorem pendingStopAgesThePacket : Obligations.PendingStopAgesThePacket := by
  refine fun s => ⟨State.pendingStop_of_no_timer, fun l limit busy young => ?_, fun l limit busy old => ?_⟩
  · rw [State.pendingStop_of_timer limit busy, State.ageStop, if_neg (Nat.not_lt.2 young)]
    rfl
  · rw [State.pendingStop_of_timer limit busy, State.ageStop, if_pos old, State.clearDrain_eq]
    rfl

/-- Settles O22: IDLE with nothing to read starves, and in IDLE a pending stop ages nothing. -/
theorem idleEmptyPends : Obligations.IdleEmptyPends := by
  intro s idle empty
  have idle' : s.openMicro.fsm = .idle := by simpa using idle
  rw [step_eq_pendingStop (Or.inl ⟨idle', empty⟩), State.pendingStop_of_no_timer (Or.inr idle'),
    ← State.openMicro_stops s]
  rfl

end Sys2Proof.Machine

/-! A byte in IDLE (40_framer.md R103 to R105). -/

namespace Sys2Proof.Machine

/-- Settles O23: the row is IDLE-NOISE, whose read takes the head of rxq alone. -/
theorem idleNoiseIsDropped : Obligations.IdleNoiseIsDropped := by
  intro s b rest idle avail full hq noise
  have notMagic : s.openMicro.rxq.head? ≠ some s.cfg.magic := by
    rw [hq]
    simpa using noise
  rw [step_eq_idleNoise idle avail full notMagic, idleNoise, State.rxRead, full, State.consume, hq]
  rfl

theorem State.restartAge_eq (s : State) :
    s.restartAge = { s with stallAge := if s.cfg.stallLimit = none then s.stallAge else 0 } := by
  cases limit : s.cfg.stallLimit <;> simp [State.restartAge, limit, State.setStallAge]

/-- Settles O24: the row is IDLE-MAGIC. -/
theorem idleMagicOpensAPacket : Obligations.IdleMagicOpensAPacket := by
  intro s rest idle avail full hq
  rw [step_eq_idleMagic idle avail full (by rw [hq]; rfl), idleMagic, State.rxRead, full, State.restartAge_eq,
    State.consume, hq, ← State.openMicro_cfg s, ← State.openMicro_stallAge s]
  rfl

theorem State.setFsm_of_fsm_eq {s : State} {f : Fsm} (h : s.fsm = f) : s.setFsm f = s := by
  subst h
  rfl

/-- Settles O25: the row is IDLE-SHORT, whose read takes no byte and whose error leaves fsm in IDLE, where it was. -/
theorem idleShortReadFails : Obligations.IdleShortReadFails := by
  intro s idle avail short
  have idle' : (s.openMicro.consume 0).fsm = .idle := by simpa using idle
  rw [step_eq_idleShort idle avail short, idleShort, State.rxRead, short, State.raiseError,
    State.setFsm_of_fsm_eq idle', ← State.openMicro_stops s]
  rfl

end Sys2Proof.Machine

/-! The header bytes (40_framer.md R107, R108). -/

namespace Sys2Proof.Machine

/-- Settles O28: the row is HDR-ASSEMBLE, whose read delivers the four bytes named. -/
theorem headerIsAssembled : Obligations.HeaderIsAssembled := by
  intro s b0 b1 b2 b3 rest rdHdr avail full hq
  rw [step_eq_hdrAssemble rdHdr avail full, hdrAssemble, State.rxRead, full, State.consume, hq]
  rfl

/-- Settles O29: the row is HDR-SHORT. -/
theorem headerShortReadFails : Obligations.HeaderShortReadFails := by
  intro s rdHdr avail short
  rw [step_eq_hdrShort rdHdr avail short, ← State.openMicro_stops s]
  rfl

end Sys2Proof.Machine

/-! The lengths that no payload is read for (40_framer.md R109, R110). -/

namespace Sys2Proof.Machine

/-- Settles O30: the row is PAY-ZERO, which reads the command and the checksum from the header registers. -/
theorem zeroLengthPacketIsDispatched : Obligations.ZeroLengthPacketIsDispatched := by
  intro s rdPay zero
  rw [step_eq_payZero rdPay (by simp [zero]), payZero, State.openMicro_hdrCmd, State.openMicro_hdrChk]
  rfl

/-- Settles O31: the row is PAY-OVERSIZE, and the policy says where it goes. -/
theorem oversizedPacketIsRejected : Obligations.OversizedPacketIsRejected := by
  intro s rdPay tooLong
  rw [step_eq_payOversize rdPay tooLong, payOversize, ← State.openMicro_stops s, ← State.openMicro_hdrLen s,
    ← State.openMicro_cfg s, ← State.openMicro_drainRem s]
  cases s.openMicro.cfg.policy <;> rfl

end Sys2Proof.Machine

/-! The payload of an oversized packet under Drain (40_framer.md R115, R116). -/

namespace Sys2Proof.Machine

theorem State.openMicro_drainCount (s : State) : s.openMicro.drainCount = min s.openMicro.rxAvail s.drainRem.toNat := by
  rw [State.drainCount, State.openMicro_drainRem]

theorem State.drained_drainRem_toNat (s : State) (n : Nat) :
    (s.drained n).drainRem.toNat = s.drainRem.toNat - n := by
  rw [State.drained]
  split
  next last => exact last.symm
  · exact Nat.mod_eq_of_lt (by have := s.drainRem.isLt; omega)

theorem State.drained_fsm (s : State) (n : Nat) :
    (s.drained n).fsm = if (s.drained n).drainRem = 0 then .idle else s.fsm := by
  simp only [BitVec.toNat_eq, State.drained_drainRem_toNat]
  rw [State.drained]
  split <;> simp [*]

/-- Settles O34: the row is DRAIN-DISCARD, whose counter goes down by what is discarded and takes fsm to IDLE when it is 0. -/
theorem drainDiscardsWhatIsAvailable : Obligations.DrainDiscardsWhatIsAvailable := by
  intro s n drain _ avail hn full
  rw [← State.openMicro_drainCount] at hn
  subst hn
  refine ⟨(s.openMicro.consume s.openMicro.drainCount).drained s.openMicro.drainCount, ?_, ?_, ?_⟩
  · rw [step_eq_drainDiscard drain avail full, drainDiscard, State.rxRead, full]
  · rw [State.drained_drainRem_toNat, State.consume_drainRem, State.openMicro_drainRem]
  · ext1 <;> simp [State.drained_fsm, drain]

/-- Settles O35: the row is DRAIN-SHORT. -/
theorem drainShortReadFails : Obligations.DrainShortReadFails := by
  intro s n drain avail hn short
  rw [← State.openMicro_drainCount] at hn
  subst hn
  rw [step_eq_drainShort drain avail short, ← State.openMicro_stops s]
  rfl

end Sys2Proof.Machine

/-! The opcode table's masks on a packet's header word (30_encoding.md R81). -/

namespace Sys2Proof

/-- A mask of n ones keeps the low n bits. -/
theorem and_setWidth_allOnes {w : Nat} (x : BitVec w) (n : Nat) :
    x &&& (BitVec.allOnes n).setWidth w = (x.setWidth n).setWidth w := by
  ext i hi
  simp [BitVec.getLsbD_eq_getElem hi, Bool.and_comm]

/-- Bytes 2 to 4 are shifted out of the low 16 bits, which hold bytes 0 and 1 as a length field holds its two bytes. -/
theorem headerWord_setWidth_sixteen (b0 b1 b2 b3 b4 : Byte) :
    (headerWord b0 b1 b2 b3 b4).setWidth 16 = assembleLen b0 b1 := by
  ext i hi
  simp [headerWord, assembleLen]

theorem headerWord_setWidth_eight (b0 b1 b2 b3 b4 : Byte) : (headerWord b0 b1 b2 b3 b4).setWidth 8 = b0 := by
  ext i hi
  simp [headerWord]

/-- The mask of a listed row compares MAGIC and the command, and neither length nor checksum. -/
theorem Instr.word_and_mask16 (p : Params) (i : Instr) :
    i.word p &&& 0xFFFF#40 = (assembleLen p.magic i.cmd).setWidth 40 := by
  rw [Instr.word, show 0xFFFF#40 = (BitVec.allOnes 16).setWidth 40 by decide, and_setWidth_allOnes,
    headerWord_setWidth_sixteen]

/-- The mask of the last row compares MAGIC alone. -/
theorem Instr.word_and_mask8 (p : Params) (i : Instr) : i.word p &&& 0xFF#40 = p.magic.setWidth 40 := by
  rw [Instr.word, show 0xFF#40 = (BitVec.allOnes 8).setWidth 40 by decide, and_setWidth_allOnes,
    headerWord_setWidth_eight]

end Sys2Proof

/-! The seven rows of the command map (41_dispatcher.md R142 to R148). In each, exec is its definition read off, and the header
word's match is the row's mask applied to MAGIC and the row's command. -/

namespace Sys2Proof.Machine

/-- Settles O13: ACT1 completes with its gated result. -/
theorem act1Completes : Obligations.Act1Completes :=
  fun _ _ _ _ => ⟨rfl, rfl, by rw [Instr.word_and_mask16, Instr.cmd]; decide⟩

/-- Settles O14: ACT2 completes with its gated result. -/
theorem act2Completes : Obligations.Act2Completes :=
  fun _ _ _ _ => ⟨rfl, rfl, by rw [Instr.word_and_mask16, Instr.cmd]; decide⟩

/-- Settles O15: ACT3 completes with its gated result. -/
theorem act3Completes : Obligations.Act3Completes :=
  fun _ _ _ _ => ⟨rfl, rfl, by rw [Instr.word_and_mask16, Instr.cmd]; decide⟩

/-- Settles O16: DBG_ON is a toggle to 1. -/
theorem dbgOnCompletes : Obligations.DbgOnCompletes :=
  fun _ _ _ _ => ⟨rfl, by rw [Instr.word_and_mask16, Instr.cmd]; decide⟩

/-- Settles O17: DBG_OFF is a toggle to 0. -/
theorem dbgOffCompletes : Obligations.DbgOffCompletes :=
  fun _ _ _ _ => ⟨rfl, by rw [Instr.word_and_mask16, Instr.cmd]; decide⟩

/-- Settles O18: a received ACK only completes. -/
theorem ackCompletes : Obligations.AckCompletes :=
  fun _ _ _ _ => ⟨rfl, by rw [Instr.word_and_mask16, Instr.cmd]; decide⟩

/-- Settles O19: an unlisted command only completes, and its row's mask leaves MAGIC alone. -/
theorem unknownCompletes : Obligations.UnknownCompletes :=
  fun _ _ _ _ _ => ⟨rfl, (Instr.word_and_mask8 ..).trans rfl⟩

end Sys2Proof.Machine

/-! What a dispatch returns to the host and what it writes to the transport (41_dispatcher.md R149, R151, R153): first by the row,
then by the command byte. -/

namespace Sys2Proof

/-- The result code of a packet's dispatch (41_dispatcher.md R153). -/
def Instr.result (s : Machine.State) : Instr → Byte
  | .act1 len chk payload => s.gatedResult 0x01 len chk payload
  | .act2 len chk payload => s.gatedResult 0x02 len chk payload
  | .act3 len chk payload => s.gatedResult 0x03 len chk payload
  | .dbgOn _ _ _ => 0x04
  | .dbgOff _ _ _ => 0x05
  | .ack _ _ _ => 0x00
  | .unknown _ _ _ _ => 0x00

/-- The bytes that a packet's dispatch writes to the transport (41_dispatcher.md R151). -/
def Instr.reply (p : Params) : Instr → List Byte
  | .dbgOn _ _ _ | .dbgOff _ _ _ => Machine.ackFrame p
  | .act1 _ _ _ | .act2 _ _ _ | .act3 _ _ _ | .ack _ _ _ | .unknown _ _ _ _ => []

end Sys2Proof

namespace Sys2Proof.Machine

theorem exec_result_reply (i : Instr) (s : State) :
    ∃ t, exec i s = .next t ∧ t.stops = s.stops ++ [.completed (i.result s)] ∧ t.txq = s.txq ++ i.reply s.cfg := by
  cases i with
  | act1 | act2 | act3 | ack | unknown => exact ⟨_, rfl, rfl, (List.append_nil _).symm⟩
  | dbgOn | dbgOff => exact ⟨_, rfl, rfl, rfl⟩

section Lookup
variable (cmd : Byte) (len : Half) (chk : Byte) (payload : List Byte)

theorem lookup_result (s : State) :
    (lookup cmd len chk payload).result s =
      if cmd = 0x01 ∨ cmd = 0x02 ∨ cmd = 0x03 then s.gatedResult cmd len chk payload
      else if cmd = 0x04 then 0x04 else if cmd = 0x05 then 0x05 else 0x00 := by
  fun_cases lookup <;> simp_all [Instr.result]

theorem lookup_reply (p : Params) :
    (lookup cmd len chk payload).reply p = if cmd = 0x04 ∨ cmd = 0x05 then ackFrame p else [] := by
  fun_cases lookup <;> simp_all [Instr.reply]

end Lookup

/-- Settles O21: every row has a result, and the row of a command byte has the result of that command. -/
theorem everyCommandHasAResult : Obligations.EveryCommandHasAResult := by
  intro cmd len chk payload s
  obtain ⟨t, answer, completed, _⟩ := exec_result_reply (lookup cmd len chk payload) s
  rw [lookup_result] at completed
  exact ⟨t, answer, completed⟩

end Sys2Proof.Machine

/-! Which micro-steps write to the transport (41_dispatcher.md R151). -/

namespace Sys2Proof.Machine

theorem exec_lookup_txq_stops {cmd : Byte} {len : Half} {chk : Byte} {payload : List Byte} {s t : State}
    (answer : exec (lookup cmd len chk payload) s = .next t) :
    t.txq = (if cmd = 0x04 ∨ cmd = 0x05 then s.txq ++ ackFrame s.cfg else s.txq) ∧
      ∃ r, t.stops = s.stops ++ [.completed r] := by
  obtain ⟨t', answer', completed, reply⟩ := exec_result_reply (lookup cmd len chk payload) s
  obtain rfl : t' = t := Host.Outcome.next.inj (answer'.symm.trans answer)
  rw [lookup_reply, apply_ite (s.txq ++ ·), List.append_nil] at reply
  exact ⟨reply, _, completed⟩

@[simp] theorem State.pendingStop_txq (s : State) : s.pendingStop.txq = s.txq := by
  obtain ⟨_, h⟩ | ⟨_, _, _, _, h⟩ | ⟨_, _, _, _, h⟩ := s.pendingStop_cases <;> simp [h]

theorem State.pendingStop_stops_ne_completed (s : State) (r : Byte) :
    s.pendingStop.stops ≠ s.stops ++ [.completed r] := by
  obtain ⟨_, h⟩ | ⟨_, _, _, _, h⟩ | ⟨_, _, _, _, h⟩ := s.pendingStop_cases <;> simp [h]

/-- A micro-step writes nothing and completes nothing, or it dispatches the packet of the header registers in RD_PAY. -/
theorem StepTo.txq_cases {s t : State} (h : StepTo s t) :
    (t.txq = s.txq ∧ ∀ r, t.stops ≠ s.stops ++ [.completed r]) ∨
      (s.fsm = .rdPay ∧ t.txq = (if s.hdrCmd = 0x04 ∨ s.hdrCmd = 0x05 then s.txq ++ ackFrame s.cfg else s.txq) ∧
        ∃ r, t.stops = s.stops ++ [.completed r]) := by
  cases h with
  | starve => exact .inl ⟨by simp, by simpa using s.openMicro.pendingStop_stops_ne_completed⟩
  | zero _ rdPay _ answer | payload _ rdPay _ _ _ _ answer =>
    exact .inr ⟨rdPay, by simpa using exec_lookup_txq_stops answer⟩
  | noise | magic | header | discard | short | dropped | draining | payloadShort | discardShort =>
    exact .inl (by simp)

/-- Settles O47: the dispatching micro-steps write ACK_FRAME for 0x04 and 0x05 alone, and no other micro-step writes or completes. -/
theorem onlyAckFramesAreWritten : Obligations.OnlyAckFramesAreWritten := by
  intro s t answer
  obtain ⟨silent, uncompleted⟩ | ⟨rdPay, written, completed⟩ := (step_to answer).txq_cases
  · exact ⟨.inl silent, fun _ ⟨r, completed⟩ => absurd completed (uncompleted r)⟩
  by_cases toggles : s.hdrCmd = 0x04 ∨ s.hdrCmd = 0x05
  · rw [if_pos toggles] at written
    exact ⟨.inr ⟨written, rdPay, toggles, completed⟩, fun _ _ => written⟩
  · rw [if_neg toggles] at written
    exact ⟨.inl written, fun toggled _ => absurd toggled toggles⟩

end Sys2Proof.Machine

/-! Which micro-steps write debug_mode (70_reset_and_hazards.md R202). -/

namespace Sys2Proof.Machine

/-- The two commands that write debug_mode, the value each gives it and the result it completes with (41_dispatcher.md R145, R146),
for a dispatch that takes s to t. -/
def Toggled (cmd : Byte) (s t : State) : Prop :=
  (cmd = 0x04 ∧ t.debugMode = true ∧ t.stops = s.stops ++ [.completed 0x04]) ∨
    (cmd = 0x05 ∧ t.debugMode = false ∧ t.stops = s.stops ++ [.completed 0x05])

theorem exec_debugMode_cases {i : Instr} {s t : State} (answer : exec i s = .next t) :
    t.debugMode = s.debugMode ∨ Toggled i.cmd s t := by
  obtain ⟨r, completes⟩ | ⟨cmd, turnsOn⟩ | ⟨cmd, turnsOff⟩ := exec_cases i s
  · obtain rfl : s.complete r = t := Host.Outcome.next.inj (completes.symm.trans answer)
    exact .inl (State.complete_debugMode ..)
  · obtain rfl : s.toggle true 0x04 = t := Host.Outcome.next.inj (turnsOn.symm.trans answer)
    exact .inr (.inl ⟨cmd, rfl, rfl⟩)
  · obtain rfl : s.toggle false 0x05 = t := Host.Outcome.next.inj (turnsOff.symm.trans answer)
    exact .inr (.inr ⟨cmd, rfl, rfl⟩)

theorem exec_lookup_debugMode_cases {cmd : Byte} {len : Half} {chk : Byte} {payload : List Byte} {s t : State}
    (answer : exec (lookup cmd len chk payload) s = .next t) : t.debugMode = s.debugMode ∨ Toggled cmd s t := by
  simpa only [(lookup_fields cmd len chk payload).1] using exec_debugMode_cases answer

@[simp] theorem State.pendingStop_debugMode (s : State) : s.pendingStop.debugMode = s.debugMode := by
  obtain ⟨_, h⟩ | ⟨_, _, _, _, h⟩ | ⟨_, _, _, _, h⟩ := s.pendingStop_cases <;> simp [h]

/-- A micro-step keeps debug_mode, or it dispatches a toggle in RD_PAY. -/
theorem StepTo.debugMode_cases {s t : State} (h : StepTo s t) :
    t.debugMode = s.debugMode ∨ (s.fsm = .rdPay ∧ Toggled s.hdrCmd s t) := by
  cases h with
  | zero _ rdPay _ answer | payload _ rdPay _ _ _ _ answer =>
    simpa [rdPay, Toggled] using exec_lookup_debugMode_cases answer
  | starve | noise | magic | header | discard | short | dropped | draining | payloadShort | discardShort =>
    exact .inl (by simp)

/-- Settles O46: a micro-step that does not keep debug_mode dispatches one of the two toggles. -/
theorem onlyTogglesWriteDebugMode : Obligations.OnlyTogglesWriteDebugMode :=
  fun _ _ answer changed => (step_to answer).debugMode_cases.resolve_left changed

end Sys2Proof.Machine

/-! A dispatch as one update of the state (41_dispatcher.md R140). -/

namespace Sys2Proof

/-- debug_mode after a packet's dispatch (41_dispatcher.md R145, R146). -/
def Instr.modeAfter (before : Bool) : Instr → Bool
  | .dbgOn _ _ _ => true
  | .dbgOff _ _ _ => false
  | .act1 _ _ _ | .act2 _ _ _ | .act3 _ _ _ | .ack _ _ _ | .unknown _ _ _ _ => before

end Sys2Proof

namespace Sys2Proof.Machine

/-- All that a packet's dispatch writes. -/
def State.dispatched (i : Instr) (s : State) : State :=
  { s with
    debugMode := i.modeAfter s.debugMode
    txq := s.txq ++ i.reply s.cfg
    inCall := false
    stops := s.stops ++ [.completed (i.result s)] }

theorem exec_eq (i : Instr) (s : State) : exec i s = .next (s.dispatched i) := by
  cases i with
  | dbgOn | dbgOff => rfl
  | act1 len chk payload | act2 len chk payload | act3 len chk payload | ack len chk payload
  | unknown cmd len chk payload =>
    rw [State.dispatched, Instr.reply, List.append_nil]
    rfl

theorem eq_dispatched_of_exec {i : Instr} {s t : State} (answer : exec i s = .next t) : t = s.dispatched i :=
  Host.Outcome.next.inj (answer.symm.trans (exec_eq i s))

end Sys2Proof.Machine

/-! What a pending stop leaves as it was (40_framer.md R117). -/

namespace Sys2Proof.Machine

section
variable (s : State)

@[simp] theorem State.pendingStop_cfg : s.pendingStop.cfg = s.cfg := by
  obtain ⟨_, h⟩ | ⟨_, _, _, _, h⟩ | ⟨_, _, _, _, h⟩ := s.pendingStop_cases <;> simp [h]
@[simp] theorem State.pendingStop_hdrCmd : s.pendingStop.hdrCmd = s.hdrCmd := by
  obtain ⟨_, h⟩ | ⟨_, _, _, _, h⟩ | ⟨_, _, _, _, h⟩ := s.pendingStop_cases <;> simp [h]
@[simp] theorem State.pendingStop_hdrLen : s.pendingStop.hdrLen = s.hdrLen := by
  obtain ⟨_, h⟩ | ⟨_, _, _, _, h⟩ | ⟨_, _, _, _, h⟩ := s.pendingStop_cases <;> simp [h]
@[simp] theorem State.pendingStop_hdrChk : s.pendingStop.hdrChk = s.hdrChk := by
  obtain ⟨_, h⟩ | ⟨_, _, _, _, h⟩ | ⟨_, _, _, _, h⟩ := s.pendingStop_cases <;> simp [h]
@[simp] theorem State.pendingStop_payCnt : s.pendingStop.payCnt = s.payCnt := by
  obtain ⟨_, h⟩ | ⟨_, _, _, _, h⟩ | ⟨_, _, _, _, h⟩ := s.pendingStop_cases <;> simp [h]
@[simp] theorem State.pendingStop_rxbuf : s.pendingStop.rxbuf = s.rxbuf := by
  obtain ⟨_, h⟩ | ⟨_, _, _, _, h⟩ | ⟨_, _, _, _, h⟩ := s.pendingStop_cases <;> simp [h]
@[simp] theorem State.pendingStop_rxDraw : s.pendingStop.rxDraw = s.rxDraw := by
  obtain ⟨_, h⟩ | ⟨_, _, _, _, h⟩ | ⟨_, _, _, _, h⟩ := s.pendingStop_cases <;> simp [h]
@[simp] theorem State.pendingStop_turns : s.pendingStop.turns = s.turns := by
  obtain ⟨_, h⟩ | ⟨_, _, _, _, h⟩ | ⟨_, _, _, _, h⟩ := s.pendingStop_cases <;> simp [h]
@[simp] theorem State.pendingStop_tail : s.pendingStop.tail = s.tail := by
  obtain ⟨_, h⟩ | ⟨_, _, _, _, h⟩ | ⟨_, _, _, _, h⟩ := s.pendingStop_cases <;> simp [h]
@[simp] theorem State.pendingStop_inCall : s.pendingStop.inCall = false := by
  obtain ⟨_, h⟩ | ⟨_, _, _, _, h⟩ | ⟨_, _, _, _, h⟩ := s.pendingStop_cases <;> simp [h]

theorem State.pendingStop_fsm_cases : s.pendingStop.fsm = s.fsm ∨ s.pendingStop.fsm = .idle := by
  obtain ⟨_, h⟩ | ⟨_, _, _, _, h⟩ | ⟨_, _, _, _, h⟩ := s.pendingStop_cases <;> simp [h]

theorem State.pendingStop_stops : ∃ e, s.pendingStop.stops = s.stops ++ [e] := by
  obtain ⟨_, h⟩ | ⟨_, _, _, _, h⟩ | ⟨_, _, _, _, h⟩ := s.pendingStop_cases <;> exact ⟨_, by simp [h]; rfl⟩

end

end Sys2Proof.Machine

/-! One register at a time: what a micro-step does to it. -/

namespace Sys2Proof.Machine

section
variable {s t : State} (h : StepTo s t)
include h

theorem StepTo.cfg_eq : t.cfg = s.cfg := by
  cases h with
  | zero _ _ _ answer | payload _ _ _ _ _ _ answer => simp [eq_dispatched_of_exec answer, State.dispatched]
  | starve | noise | magic | header | discard | short | dropped | draining | payloadShort | discardShort => simp

theorem StepTo.payCnt_cases : t.payCnt = s.payCnt ∨ t.payCnt = 0 := by
  cases h with
  | magic => exact .inr (by simp)
  | zero _ _ _ answer | payload _ _ _ _ _ _ answer =>
    exact .inl (by simp [eq_dispatched_of_exec answer, State.dispatched])
  | starve | noise | header | discard | short | dropped | draining | payloadShort | discardShort =>
    exact .inl (by simp)

/-- A micro-step leaves rxbuf as it was, or stores the first k bytes of rxq at index 0, k at most an accepted hdr_len. -/
theorem StepTo.rxbuf_cases : t.rxbuf = s.rxbuf ∨
    (s.fsm = .rdPay ∧ s.hdrLen.toNat ≤ s.cfg.capacity ∧
      ∃ k ≤ s.hdrLen.toNat, t.rxbuf = s.rxbuf.storeAll 0 (s.openMicro.rxq.take k)) := by
  cases h with
  | payload _ rdPay _ fits _ _ answer =>
    exact .inr ⟨rdPay, fits, _, le_rfl, by simp [eq_dispatched_of_exec answer, State.dispatched]⟩
  | payloadShort rdPay _ fits _ short => exact .inr ⟨rdPay, fits, _, short.le, by simp⟩
  | zero _ _ _ answer => exact .inl (by simp [eq_dispatched_of_exec answer, State.dispatched])
  | starve | noise | magic | header | discard | short | dropped | draining | discardShort => exact .inl (by simp)

end

end Sys2Proof.Machine

/-! stall_age (40_framer.md R104, R117, R120). -/

namespace Sys2Proof.Machine

/-- Outside a pending stop only IDLE-MAGIC writes stall_age, and only that rule leaves IDLE. -/
theorem StepTo.stallAge_cases {s t : State} (h : StepTo s t) :
    (t.stallAge = s.stallAge ∧ (t.fsm ≠ .idle → s.fsm ≠ .idle)) ∨ t = s.openMicro.pendingStop ∨
      t.stallAge = if s.cfg.stallLimit = none then s.stallAge else 0 := by
  cases h with
  | starve => exact .inr (.inl rfl)
  | magic => exact .inr (.inr (by simp [State.restartAge_eq]))
  | zero _ _ _ answer | payload _ _ _ _ _ _ answer =>
    exact .inl (by simp [eq_dispatched_of_exec answer, State.dispatched])
  | header _ _ _ _ _ fsm | draining fsm | discard _ fsm => exact .inl ⟨by simp, fun _ => by simp [fsm]⟩
  | noise | short | dropped | payloadShort | discardShort => exact .inl (by simp)

/-- A pending stop raises an age of at most L in flight to at most L + 1, and to L + 1 on its way to IDLE alone. -/
theorem State.openMicro_pendingStop_age {s : State} (inv : Inv s) :
    (s.cfg.stallLimit = none → s.openMicro.pendingStop.stallAge = 0) ∧
    ∀ l, s.cfg.stallLimit = some l → s.openMicro.pendingStop.stallAge ≤ l + 1 ∧
      (s.openMicro.pendingStop.fsm ≠ .idle → s.openMicro.pendingStop.stallAge ≤ l) := by
  obtain ⟨_, h⟩ | ⟨k, limit, _, young, h⟩ | ⟨k, limit, busy, _, h⟩ := s.openMicro.pendingStop_cases
  · simpa [h] using ⟨inv.ageOff, inv.ageBound⟩
  · have age : s.openMicro.pendingStop.stallAge = s.stallAge + 1 := by simp [h]
    rw [State.openMicro_cfg] at limit
    rw [State.openMicro_stallAge] at young
    refine ⟨fun none => by simp [none] at limit, fun l some => ?_⟩
    obtain rfl : k = l := Option.some.inj (limit.symm.trans some)
    rw [age]
    exact ⟨by omega, fun _ => young⟩
  · have age : s.openMicro.pendingStop.stallAge = s.stallAge + 1 := by simp [h]
    have idle : s.openMicro.pendingStop.fsm = .idle := by simp [h]
    rw [State.openMicro_cfg] at limit
    rw [State.openMicro_fsm] at busy
    refine ⟨fun none => by simp [none] at limit, fun l some => ?_⟩
    obtain rfl : k = l := Option.some.inj (limit.symm.trans some)
    rw [age]
    exact ⟨Nat.succ_le_succ ((inv.ageBound k limit).2 busy), fun busy => absurd idle busy⟩

end Sys2Proof.Machine

/-! The invariant, a group of its clauses at a time (10_state.md R30, R32, R37, R39; 40_framer.md R109 to R111, R114, R120). -/

namespace Sys2Proof.Machine

theorem State.drained_of_drain {s : State} (drain : s.fsm = .drain) (n : Nat) :
    ((s.drained n).fsm = .drain ↔ (s.drained n).drainRem ≠ 0) := by
  rw [State.drained_fsm, drain]
  split
  next done => exact ⟨nofun, absurd done⟩
  next left => exact ⟨fun _ => left, fun _ => rfl⟩

section
variable {s t : State} (h : StepTo s t)
include h

/-- Between calls RD_PAY is reached by starving in it alone, and PAY-WAIT's guard bounds hdr_len. -/
theorem StepTo.keeps_waiting (rdPay : t.fsm = .rdPay) (stopped : t.inCall = false) :
    1 ≤ t.hdrLen.toNat ∧ t.hdrLen.toNat ≤ t.cfg.capacity := by
  cases h with
  | starve starved =>
    have waits : s.fsm = .rdPay := by
      obtain same | idle := s.openMicro.pendingStop_fsm_cases
      · simpa using same.symm.trans rdPay
      · simp [idle] at rdPay
    have guard : 1 ≤ s.hdrLen.toNat ∧ s.hdrLen.toNat ≤ s.cfg.capacity ∧ s.openMicro.rxAvail < s.hdrLen.toNat := by
      simpa [Starved, waits] using starved
    simpa using ⟨guard.1, guard.2.1⟩
  | zero _ _ _ answer | payload _ _ _ _ _ _ answer =>
    simp [eq_dispatched_of_exec answer, State.dispatched] at rdPay
  | noise | magic | header | discard => simp at stopped
  | short | dropped | draining | payloadShort | discardShort => simp at rdPay

variable (inv : Inv s)
include inv

theorem StepTo.keeps_buffer : Memory.wf t.rxbuf ∧ ∀ c ∈ t.rxbuf, c.1 < t.cfg.capacity := by
  rw [h.cfg_eq]
  obtain same | ⟨_, fits, k, hk, stored⟩ := h.rxbuf_cases
  · rw [same]
    exact ⟨inv.bufSorted, inv.bufInside⟩
  · rw [stored]
    refine ⟨Memory.storeAll_wf _ _ _ inv.bufSorted, fun c hc => ?_⟩
    obtain old | new := Memory.mem_storeAll _ _ _ _ hc
    · exact inv.bufInside c old
    · rw [List.length_take] at new
      omega

theorem StepTo.keeps_payCnt : t.payCnt = 0 :=
  h.payCnt_cases.elim (·.trans inv.payCntZero) id

/-- DRAIN is entered with hdr_len, which is not 0, to drain, and is left when nothing is. -/
theorem StepTo.keeps_drain :
    (t.fsm = .drain → t.cfg.policy = .drain ∧ t.drainRem ≠ 0) ∧ (t.fsm ≠ .drain → t.drainRem = 0) := by
  have active := inv.drainActive
  have rest := inv.drainRest
  rw [h.cfg_eq]
  cases h with
  | starve =>
    obtain ⟨_, h⟩ | ⟨_, _, _, _, h⟩ | ⟨_, _, _, _, h⟩ := s.openMicro.pendingStop_cases
    · simpa [h] using ⟨active, rest⟩
    · simpa [h] using ⟨active, rest⟩
    · suffices s.cfg.policy ≠ .drain → s.drainRem = 0 by simpa [h, State.clearDrain_drainRem]
      exact fun drop => rest fun drain => drop (active drain).1
  | noise => simpa using ⟨active, rest⟩
  | magic idle => simpa using rest (by simp [idle])
  | header _ _ _ _ _ rdHdr => simpa using rest (by simp [rdHdr])
  | short _ opening => simpa using rest (by obtain ⟨fsm, _⟩ | ⟨fsm, _⟩ := opening <;> simp [fsm])
  | zero _ rdPay _ answer | payload _ rdPay _ _ _ _ answer =>
    simpa [eq_dispatched_of_exec answer, State.dispatched] using rest (by simp [rdPay])
  | dropped rdPay | payloadShort rdPay => simpa using rest (by simp [rdPay])
  | draining _ _ nonzero policy => simpa [policy, BitVec.toNat_eq] using nonzero
  | discard n drain =>
    have drain' : (s.openMicro.consume n).fsm = .drain := by simpa using drain
    have left := State.drained_of_drain drain' n
    exact ⟨fun still => ⟨(active drain).1, left.1 still⟩, fun idle => not_not.1 (mt left.2 idle)⟩
  | discardShort => simp

theorem StepTo.keeps_age : (t.cfg.stallLimit = none → t.stallAge = 0) ∧
    ∀ l, t.cfg.stallLimit = some l → t.stallAge ≤ l + 1 ∧ (t.fsm ≠ .idle → t.stallAge ≤ l) := by
  rw [h.cfg_eq]
  obtain ⟨age, busy⟩ | rfl | age := h.stallAge_cases
  · rw [age]
    exact ⟨inv.ageOff, fun l limit => (inv.ageBound l limit).imp_right (· ∘ busy)⟩
  · exact State.openMicro_pendingStop_age inv
  · rw [age]
    exact ⟨fun none => by rw [if_pos none, inv.ageOff none], fun l limit => by simp [limit]⟩

end

/-- Settles O39: each group of clauses is kept by every rule, the buffer's by what a payload read stores. -/
theorem stepKeepsInvariant : Obligations.StepKeepsInvariant := by
  intro s t inv answer
  have h := step_to answer
  obtain ⟨sorted, inside⟩ := h.keeps_buffer inv
  obtain ⟨active, rest⟩ := h.keeps_drain inv
  obtain ⟨off, bound⟩ := h.keeps_age inv
  exact ⟨sorted, inside, active, rest, off, bound, h.keeps_payCnt inv, h.keeps_waiting⟩

end Sys2Proof.Machine

/-! A packet's fields against its bytes (30_encoding.md R80, R87, R90). -/

namespace Sys2Proof

@[simp] theorem lenLow_assembleLen (lo hi : Byte) : lenLow (assembleLen lo hi) = lo := by
  rw [assembleLen_eq_append, lenLow, BitVec.extractLsb'_append_eq_right]

@[simp] theorem lenHigh_assembleLen (lo hi : Byte) : lenHigh (assembleLen lo hi) = hi := by
  rw [assembleLen_eq_append, lenHigh, BitVec.extractLsb'_append_eq_left]

theorem Instr.wf_iff (p : Params) (i : Instr) :
    i.wf p = true ↔ i.payload.length = i.len.toNat ∧ i.len.toNat ≤ p.capacity ∧ i.cmdUnlisted = true := by
  simp [Instr.wf, Instr.payloadMatches, Instr.lenFits, and_assoc]

theorem lookup_cmdUnlisted (cmd : Byte) (len : Half) (chk : Byte) (payload : List Byte) :
    (lookup cmd len chk payload).cmdUnlisted = true := by
  fun_cases lookup with
  | case1 | case2 | case3 | case4 | case5 | case6 => rfl
  | case7 =>
    rw [Instr.cmdUnlisted, decide_eq_true_eq]
    bv_omega

/-- The command byte of a packet that only unlisted commands make UNKNOWN selects its row. -/
theorem lookup_of_cmdUnlisted {i : Instr} (unlisted : i.cmdUnlisted = true) :
    lookup i.cmd i.len i.chk i.payload = i := by
  cases i with
  | act1 | act2 | act3 | dbgOn | dbgOff | ack => rfl
  | unknown cmd len chk payload =>
    rw [Instr.cmdUnlisted, decide_eq_true_eq] at unlisted
    have others : cmd ≠ 1 ∧ cmd ≠ 2 ∧ cmd ≠ 3 ∧ cmd ≠ 4 ∧ cmd ≠ 5 ∧ cmd ≠ 6 := by bv_omega
    simp only [lookup, Instr.cmd, Instr.len, Instr.chk, Instr.payload, others, if_false]

end Sys2Proof

/-! Decoding a whole header (30_encoding.md R88, R90). -/

namespace Sys2Proof

section
variable {p : Params} {cmd lo hi chk : Byte} {rest : List Byte}

theorem decodeAfterMagic_of_capacity_lt (tooLong : p.capacity < (assembleLen lo hi).toNat) :
    decodeAfterMagic p (cmd :: lo :: hi :: chk :: rest) = .error (.frameTooLarge (assembleLen lo hi).toNat) :=
  if_pos tooLong

theorem decodeAfterMagic_of_fits (fits : (assembleLen lo hi).toNat ≤ p.capacity)
    (there : (assembleLen lo hi).toNat ≤ rest.length) :
    decodeAfterMagic p (cmd :: lo :: hi :: chk :: rest) =
      .ok (lookup cmd (assembleLen lo hi) chk (rest.take (assembleLen lo hi).toNat),
        rest.drop (assembleLen lo hi).toNat) := by
  rw [decodeAfterMagic, if_neg (Nat.not_lt.2 fits), if_neg (Nat.not_lt.2 there)]

end

/-- Settles O8: behind MAGIC the size check comes first, then the availability of the payload. -/
theorem onlyAnOversizedLengthIsIllegal : Obligations.OnlyAnOversizedLengthIsIllegal :=
  fun p _ _ _ _ _ => ⟨fun tooLong => (decode_magic p _).trans (decodeAfterMagic_of_capacity_lt tooLong),
    fun fits there => (decode_magic p _).trans (decodeAfterMagic_of_fits fits there)⟩

/-- Settles O9: the two length bytes assemble to the length, which cuts the payload off, and the command selects the packet's row. -/
theorem decodeOfEncodeIsThePacket : Obligations.DecodeOfEncodeIsThePacket := by
  intro p i rest wf
  obtain ⟨length, fits, unlisted⟩ := (i.wf_iff p).1 wf
  have len : assembleLen (lenLow i.len) (lenHigh i.len) = i.len := assembleLen_lenLow_lenHigh i.len
  calc decode p (encode p i ++ rest)
      = decodeAfterMagic p (i.cmd :: lenLow i.len :: lenHigh i.len :: i.chk :: (i.payload ++ rest)) := decode_magic p _
    _ = .ok (lookup i.cmd i.len i.chk ((i.payload ++ rest).take i.len.toNat),
          (i.payload ++ rest).drop i.len.toNat) := by
      rw [decodeAfterMagic_of_fits (by rwa [len]) (by simp [len, length]), len]
    _ = .ok (i, rest) := by
      rw [List.take_left' length, List.drop_left' length, lookup_of_cmdUnlisted unlisted]

/-- Everything that a list of bytes which decodes can be: a whole header of a length that fits, and at least its payload. -/
theorem decode_eq_ok {p : Params} {bytes rest : List Byte} {i : Instr} (h : decode p bytes = .ok (i, rest)) :
    ∃ cmd lo hi chk more, bytes = p.magic :: cmd :: lo :: hi :: chk :: more ∧
      (assembleLen lo hi).toNat ≤ p.capacity ∧ (assembleLen lo hi).toNat ≤ more.length ∧
      i = lookup cmd (assembleLen lo hi) chk (more.take (assembleLen lo hi).toNat) ∧
      rest = more.drop (assembleLen lo hi).toNat := by
  match bytes, h with
  | b :: after, h =>
    rw [decode] at h
    split at h
    next magic =>
      subst magic
      match after, h with
      | cmd :: lo :: hi :: chk :: more, h =>
        simp only [decodeAfterMagic] at h
        split at h
        · cases h
        next fits =>
          split at h
          · cases h
          next there =>
            cases h
            exact ⟨cmd, lo, hi, chk, more, rfl, Nat.not_lt.1 fits, Nat.not_lt.1 there, rfl, rfl⟩
    · cases h

/-- Settles O10: the row selected has the header's fields and the payload cut off, so its bytes are those decoded. -/
theorem whatDecodesIsThePacketsBytes : Obligations.WhatDecodesIsThePacketsBytes := by
  intro p bytes i rest h
  obtain ⟨cmd, lo, hi, chk, more, rfl, fits, there, rfl, rfl⟩ := decode_eq_ok h
  obtain ⟨cmdEq, lenEq, chkEq, payloadEq⟩ :=
    Machine.lookup_fields cmd (assembleLen lo hi) chk (more.take (assembleLen lo hi).toNat)
  rw [Instr.wf_iff, encode, frameHeader, cmdEq, lenEq, chkEq, payloadEq, lenLow_assembleLen, lenHigh_assembleLen]
  exact ⟨⟨List.length_take_of_le there, fits, lookup_cmdUnlisted ..⟩, by simp⟩

/-- Settles O7: each list is the bytes of its packet and what follows, and decoding them gives both back. -/
theorem wordsOfTheSpecDecode : Obligations.WordsOfTheSpecDecode := by
  have decodes := decodeOfEncodeIsThePacket Params.default
  exact ⟨decodes (.act1 2 0x5A [0xDE, 0xAD]) [] rfl, decodes (.act2 3 0x00 [0x01, 0x02, 0x03]) [] rfl,
    decodes (.act3 1 0x00 [0xFF]) [0x11] rfl, decodes (.dbgOn 0 0x00 []) [] rfl, decodes (.dbgOff 0 0x00 []) [] rfl,
    decodes (.ack 0 0x00 []) [] rfl, decodes (.unknown 0xAA 0 0x00 []) [] rfl⟩

end Sys2Proof

/-! The rows of the opcode table (30_encoding.md R81, R87). -/

namespace Sys2Proof

/-- Two listed rows' values, MAGIC and a command, are the same for the same command alone. -/
theorem rowValue_beq (cmd c : Byte) :
    ((assembleLen 0xAA cmd).setWidth 40 == (assembleLen 0xAA c).setWidth 40) = decide (cmd = c) := by
  rw [← beq_eq_decide, Bool.eq_iff_iff, beq_iff_eq, beq_iff_eq]
  refine ⟨fun same => ?_, fun same => by rw [same]⟩
  have high := congrArg (fun value : BitVec 40 => lenHigh (value.setWidth 16)) same
  simpa using high

/-- The opcode table, each listed row's value written as MAGIC and its command. -/
theorem opcodeTable_eq : opcodeTable =
    [⟨"ACT1", 0xFFFF#40, (assembleLen 0xAA 0x01).setWidth 40⟩, ⟨"ACT2", 0xFFFF#40, (assembleLen 0xAA 0x02).setWidth 40⟩,
      ⟨"ACT3", 0xFFFF#40, (assembleLen 0xAA 0x03).setWidth 40⟩, ⟨"DBG_ON", 0xFFFF#40, (assembleLen 0xAA 0x04).setWidth 40⟩,
      ⟨"DBG_OFF", 0xFFFF#40, (assembleLen 0xAA 0x05).setWidth 40⟩, ⟨"ACK", 0xFFFF#40, (assembleLen 0xAA 0x06).setWidth 40⟩,
      ⟨"UNKNOWN", 0xFF#40, (0xAA : Byte).setWidth 40⟩] := by
  decide

/-- A listed row's mask keeps MAGIC and the command, and the last row's MAGIC alone: the rows are tried as `lookup` tries
them. -/
theorem tableMnemonic_word (i : Instr) : tableMnemonic (i.word Params.default) =
    some (lookup i.cmd i.len i.chk i.payload).mnemonic := by
  have mask16 : i.word Params.default &&& 0xFFFF#40 = (assembleLen 0xAA i.cmd).setWidth 40 := i.word_and_mask16 _
  have mask8 : i.word Params.default &&& 0xFF#40 = (0xAA : Byte).setWidth 40 := i.word_and_mask8 _
  rw [tableMnemonic, opcodeTable_eq]
  simp only [List.find?_cons, mask16, mask8, rowValue_beq]
  fun_cases lookup with
  | case1 row | case2 _ row | case3 _ _ row | case4 _ _ _ row | case5 _ _ _ _ row | case6 _ _ _ _ _ row =>
    simp [row, Instr.mnemonic]
  | case7 => simp only [*, decide_false, beq_self_eq_true, Option.map_some, Instr.mnemonic]

/-- Settles O11: the header word is that of the packet looked up, whose command selects it again. -/
theorem lookupIsTheFirstMatchingRow : Obligations.LookupIsTheFirstMatchingRow := by
  intro cmd len chk payload
  obtain ⟨cmdEq, lenEq, chkEq, payloadEq⟩ := Machine.lookup_fields cmd len chk payload
  have := tableMnemonic_word (lookup cmd len chk payload)
  rwa [Instr.word, cmdEq, lenEq, chkEq, payloadEq] at this

end Sys2Proof

/-! Accesses to rxbuf (00_scope.md R19, 20_memory.md R69). -/

namespace Sys2Proof.Machine

section
variable {s : State} {i n : Nat} {v : List Byte}

theorem State.memRead_inside (inside : i + n ≤ s.cfg.capacity) :
    s.memRead i n = .ok (s.rxbuf.loadAll (Config.resetByte s.rxDraw) i n) :=
  if_pos inside

theorem State.memRead_outside (outside : s.cfg.capacity < i + n) : s.memRead i n = .error (.rxbufOutOfBounds i n) :=
  if_neg (Nat.not_le.2 outside)

theorem State.memWrite_inside (inside : i + v.length ≤ s.cfg.capacity) :
    s.memWrite i v = .ok (s.setRxbuf (s.rxbuf.storeAll i v)) :=
  if_pos inside

theorem State.memWrite_outside (outside : s.cfg.capacity < i + v.length) :
    s.memWrite i v = .error (.rxbufOutOfBounds i v.length) :=
  if_neg (Nat.not_le.2 outside)

end

/-- Settles O12: the guard of an access is its bound, and a list stored is read back, and nothing else with it. -/
theorem everyAccessInsideTheBufferAnswers : Obligations.EveryAccessInsideTheBufferAnswers := by
  refine fun s i n v => ⟨fun inside => ?_, State.memRead_outside, fun inside => ?_, State.memWrite_outside⟩
  · have answer := State.memRead_inside inside
    exact ⟨_, answer, (State.memRead_ok answer).2⟩
  · refine ⟨_, State.memWrite_inside inside, ?_, fun a elsewhere => ?_, rfl⟩
    · exact (State.memRead_inside (s := s.setRxbuf (s.rxbuf.storeAll i v)) inside).trans
        (congrArg Except.ok (Memory.loadAll_storeAll ..))
    · exact (Memory.byteAt_storeAll ..).trans (if_neg (by omega))

end Sys2Proof.Machine

/-! Reset and the host's calls (10_state.md R48, R49; 70_reset_and_hazards.md R200, R205). -/

namespace Sys2Proof.Machine

/-- Settles O1: the registers are read off the definition, and MemRead answers within CAPACITY whatever rxbuf holds. -/
theorem resetSetsEveryRegister : Obligations.ResetSetsEveryRegister := by
  refine ⟨fun s => ⟨rfl, rfl, rfl, rfl, rfl, rfl, rfl, rfl, fun i n inside => ?_, rfl, rfl, rfl, rfl, rfl⟩, rfl, rfl⟩
  exact ⟨_, State.memRead_inside (s := s.resetBlock) inside, Memory.loadAll_length ..⟩

theorem Inv.of_cleared {s : State} (fsm : s.fsm = .idle) (rxbuf : s.rxbuf = []) (drainRem : s.drainRem = 0)
    (stallAge : s.stallAge = 0) (payCnt : s.payCnt = 0) : Inv s where
  bufSorted := by simp [rxbuf]
  bufInside := by simp [rxbuf]
  drainActive := by simp [fsm]
  drainRest _ := drainRem
  ageOff _ := stallAge
  ageBound := by simp [stallAge]
  payCntZero := payCnt
  waiting := by simp [fsm]

/-- Settles O40: IDLE with no byte of rxbuf written and the counters 0 meets every clause. -/
theorem resetMeetsInvariant : Obligations.ResetMeetsInvariant :=
  ⟨.of_cleared rfl rfl rfl rfl rfl, fun _ => .of_cleared rfl rfl rfl rfl rfl⟩

/-- Settles O3: both moves branch on `inCall` alone. -/
theorem hostMovesInsideACallAreRefused : Obligations.HostMovesInsideACallAreRefused :=
  fun _ _ => ⟨fun running => ⟨if_pos running, if_pos running⟩, fun between => if_neg (by simp [between])⟩

end Sys2Proof.Machine

/-! What a dispatch leaves as it was (41_dispatcher.md R140, R151). -/

namespace Sys2Proof

theorem Instr.keeps_of_not_toggle {i : Instr} (notOn : i.cmd ≠ 0x04) (notOff : i.cmd ≠ 0x05) (p : Params) (b : Bool) :
    i.modeAfter b = b ∧ i.reply p = [] := by
  cases i with
  | act1 | act2 | act3 | ack | unknown => exact ⟨rfl, rfl⟩
  | dbgOn => exact absurd rfl notOn
  | dbgOff => exact absurd rfl notOff

theorem Instr.reply_of_toggle {i : Instr} (unlisted : i.cmdUnlisted = true) (toggle : i.cmd = 0x04 ∨ i.cmd = 0x05)
    (p : Params) : i.reply p = Machine.ackFrame p := by
  rw [← lookup_of_cmdUnlisted unlisted, Machine.lookup_reply, if_pos toggle]

end Sys2Proof

namespace Sys2Proof.Machine

/-- Settles O20: a dispatch is one update of debug_mode, txq and the model's log of the call. -/
theorem dispatchFrame : Obligations.DispatchFrame := by
  intro i s t answer
  obtain rfl := eq_dispatched_of_exec answer
  refine ⟨rfl, rfl, rfl, rfl, rfl, rfl, rfl, rfl, rfl, rfl, rfl, fun _ => rfl, rfl, rfl, rfl, ⟨_, rfl⟩,
    fun notOn notOff => ?_, fun unlisted toggle => ?_⟩
  · obtain ⟨mode, reply⟩ := Instr.keeps_of_not_toggle notOn notOff s.cfg s.debugMode
    simp [State.dispatched, mode, reply]
  · simp [State.dispatched, Instr.reply_of_toggle unlisted toggle]

end Sys2Proof.Machine

/-! A complete packet in RD_PAY, of any length that fits (40_framer.md R109, R112, R125). -/

namespace Sys2Proof.Machine

/-- The state on which a packet of n payload bytes is dispatched: the payload stored in rxbuf and consumed, fsm in IDLE. -/
def State.buffered (n : Nat) (s : State) : State :=
  { s with fsm := .idle, rxbuf := s.rxbuf.storeAll 0 (s.rxq.take n), rxq := s.rxq.drop n }

/-- PAY-ZERO and PAY-READ as one rule: of length 0, the payload is empty and its store writes nothing. -/
theorem step_eq_exec {s : State} (rdPay : s.fsm = .rdPay) (fits : s.hdrLen.toNat ≤ s.cfg.capacity)
    (avail : s.hdrLen.toNat ≤ s.openMicro.rxAvail) (full : delivered s.turn s.hdrLen.toNat = s.hdrLen.toNat) :
    step s = exec (lookup s.hdrCmd s.hdrLen s.hdrChk (s.openMicro.rxq.take s.hdrLen.toNat))
      (s.openMicro.buffered s.hdrLen.toNat) := by
  obtain zero | nonempty := Nat.eq_zero_or_pos s.hdrLen.toNat
  · have zero' : s.hdrLen = 0 := BitVec.eq_of_toNat_eq zero
    rw [zeroLengthPacketIsDispatched s rdPay zero', zero']
    rfl
  · rw [step_eq_payRead rdPay nonempty fits avail full,
      payRead_eq _ _ (by simpa using fits) (by simpa using avail) (by simpa using full), State.openMicro_hdrLen,
      State.openMicro_hdrCmd, State.openMicro_hdrChk]
    rfl

/-- Settles O36: the bytes decoded are the header registers' and rxq's, so the packet is the one the step dispatches. -/
theorem stepRunsTheDecodedPacket : Obligations.StepRunsTheDecodedPacket := by
  intro s i rest rdPay decoded avail full
  obtain ⟨cmd, lo, hi, chk, more, bytes, fits, there, rfl, rfl⟩ := decode_eq_ok decoded
  simp only [List.cons.injEq] at bytes
  obtain ⟨_, rfl, rfl, rfl, rfl, rfl⟩ := bytes
  rw [assembleLen_lenLow_lenHigh] at fits ⊢
  rw [step_eq_exec rdPay fits avail full, (lookup_fields ..).2.2.2, State.buffered, State.openMicro_rxbuf]

end Sys2Proof.Machine

/-! Every rule of the table answers next (40_framer.md R101). -/

namespace Sys2Proof.Machine

theorem payOversize_answers (s : State) : ∃ t, payOversize s = .next t := by
  rw [payOversize]
  cases s.cfg.policy <;> exact ⟨_, rfl⟩

/-- Only the payload rules reach into rxbuf, and the table selects them for a length that fits. The cases are the branches of
`selectRule`, in its order. -/
theorem microStep_answers (t : Turn) (s : State) : ∃ u, microStep t s = .next u := by
  rw [microStep]
  fun_cases selectRule t s with
  | case11 _ _ fits avail short => exact ⟨_, payShort_eq t s (Nat.not_lt.1 fits)⟩
  | case12 _ _ fits avail full =>
    refine ⟨_, (payRead_eq t s (Nat.not_lt.1 fits) (Nat.not_lt.1 avail) ?_).trans (exec_eq ..)⟩
    exact le_antisymm (delivered_le ..) (Nat.not_lt.1 full)
  | case8 => exact ⟨_, exec_eq ..⟩
  | case9 => exact payOversize_answers s
  | case1 | case2 | case3 | case4 | case5 | case6 | case7 | case10 | case13 | case14 | case15 => exact ⟨_, rfl⟩

/-- Settles O38: a step is a micro-step on the state with the turn's arrivals. -/
theorem everyMicroStepAnswersNext : Obligations.EveryMicroStepAnswersNext :=
  fun s => microStep_answers s.turn s.openMicro

end Sys2Proof.Machine

/-! The rest of the registers and queues, one at a time: what a micro-step does to them. -/

namespace Sys2Proof.Machine

section
variable {s t : State} (h : StepTo s t)
include h

theorem StepTo.rxDraw_eq : t.rxDraw = s.rxDraw := by
  cases h with
  | zero _ _ _ answer | payload _ _ _ _ _ _ answer => simp [eq_dispatched_of_exec answer, State.dispatched]
  | starve | noise | magic | header | discard | short | dropped | draining | payloadShort | discardShort => simp

/-- A micro-step leaves the header registers as they were, or HDR-ASSEMBLE writes them all. -/
theorem StepTo.header_cases : (t.hdrCmd = s.hdrCmd ∧ t.hdrLen = s.hdrLen ∧ t.hdrChk = s.hdrChk) ∨
    (s.fsm = .rdHdr ∧ t.fsm = .rdPay ∧ ∃ b0 b1 b2 b3, s.openMicro.rxq = b0 :: b1 :: b2 :: b3 :: t.rxq ∧
      t.hdrCmd = b0 ∧ t.hdrLen = assembleLen b1 b2 ∧ t.hdrChk = b3) := by
  cases h with
  | header b0 b1 b2 b3 rest rdHdr _ _ hq =>
    refine .inr ⟨rdHdr, rfl, b0, b1, b2, b3, ?_, rfl, rfl, rfl⟩
    rw [State.setFsm_rxq, State.loadHeader_rxq, State.consume_rxq, hq]
    rfl
  | zero _ _ _ answer | payload _ _ _ _ _ _ answer =>
    exact .inl (by simp [eq_dispatched_of_exec answer, State.dispatched])
  | starve | noise | magic | discard | short | dropped | draining | payloadShort | discardShort =>
    exact .inl (by simp)

/-- A call goes on without a stop, or it ends with one. -/
theorem StepTo.stop_cases :
    (t.inCall = true ∧ t.stops = s.stops) ∨ (t.inCall = false ∧ ∃ e, t.stops = s.stops ++ [e]) := by
  cases h with
  | starve => exact .inr ⟨by simp, by simpa using s.openMicro.pendingStop_stops⟩
  | zero _ _ _ answer | payload _ _ _ _ _ _ answer =>
    exact .inr (by simp [eq_dispatched_of_exec answer, State.dispatched])
  | noise | magic | header | discard => exact .inl (by simp)
  | short | dropped | draining | payloadShort | discardShort => exact .inr (by simp)

theorem StepTo.transport : t.turns = s.openMicro.turns ∧ t.tail = s.openMicro.tail := by
  cases h with
  | zero _ _ _ answer | payload _ _ _ _ _ _ answer => simp [eq_dispatched_of_exec answer, State.dispatched]
  | starve | noise | magic | header | discard | short | dropped | draining | payloadShort | discardShort => simp

/-- A micro-step consumes at most what the transport reports, and nothing only when it stops the call or nothing is left to
drain. -/
theorem StepTo.consumes : ∃ k ≤ s.openMicro.rxAvail, t.rxq = s.openMicro.rxq.drop k ∧
    (k = 0 → t.inCall = false ∨ (s.fsm = .drain ∧ s.drainRem = 0)) := by
  cases h with
  | starve => exact ⟨0, Nat.zero_le _, by simp⟩
  | zero _ _ _ answer => exact ⟨0, Nat.zero_le _, by simp [eq_dispatched_of_exec answer, State.dispatched]⟩
  | dropped | draining => exact ⟨0, Nat.zero_le _, by simp⟩
  | noise _ avail | magic _ avail => exact ⟨1, avail, by simp⟩
  | header _ _ _ _ _ _ avail => exact ⟨4, avail, by simp⟩
  | payload _ _ _ _ avail _ answer =>
    exact ⟨_, avail, by simp [eq_dispatched_of_exec answer, State.dispatched]⟩
  | short _ _ avail short | payloadShort _ _ _ avail short => exact ⟨_, short.le.trans avail, by simp⟩
  | discard n drain avail hn =>
    refine ⟨n, hn ▸ Nat.min_le_left .., by simp, fun none => .inr ⟨drain, ?_⟩⟩
    exact BitVec.eq_of_toNat_eq (show s.drainRem.toNat = 0 by omega)
  | discardShort n _ _ hn short => exact ⟨_, short.le.trans (hn ▸ Nat.min_le_left ..), by simp⟩

end

/-- Settles O41: no rule writes the build, and each takes bytes off the front of rxq alone. -/
theorem bytesAreConsumedInOrder : Obligations.BytesAreConsumedInOrder := by
  intro s t answer
  obtain ⟨k, reported, rest, _⟩ := (step_to answer).consumes
  exact ⟨(step_to answer).cfg_eq, k, reported, by rw [rest, State.openMicro_rxq]⟩

/-- Settles O42: the invariant excludes the one rule that can consume nothing and go on. -/
theorem microStepStopsOrConsumes : Obligations.MicroStepStopsOrConsumes := by
  intro s t inv answer
  obtain ⟨k, reported, rest, idles⟩ := (step_to answer).consumes
  obtain none | some := Nat.eq_zero_or_pos k
  · exact .inl ((idles none).resolve_right fun ⟨drain, done⟩ => (inv.drainActive drain).2 done)
  · have := reported.trans s.openMicro.rxAvail_le
    refine .inr ?_
    rw [rest, ← State.openMicro_rxq, List.length_drop]
    omega

/-- Settles O48: a byte of rxbuf that is not as it was lies among those a payload read stored. -/
theorem bufferIsWrittenInBounds : Obligations.BufferIsWrittenInBounds := by
  intro s t a answer
  have draw := (step_to answer).rxDraw_eq
  refine ⟨draw, fun changed => ?_⟩
  have written : Memory.load t.rxbuf a ≠ Memory.load s.rxbuf a :=
    changed.elim (mt fun same => by rw [State.rxByte, State.rxByte, draw, Memory.byteAt, same, Memory.byteAt]) id
  obtain same | ⟨rdPay, fits, k, hk, stored⟩ := (step_to answer).rxbuf_cases
  · exact absurd (by rw [same]) written
  · refine ⟨rdPay, fits, ?_⟩
    rw [stored, Memory.load_storeAll] at written
    have inside := of_not_not fun outside => written (if_neg outside)
    rw [List.length_take] at inside
    omega

/-- Settles O49: a micro-step that does not keep the header registers is HDR-ASSEMBLE. -/
theorem headerIsWrittenWhole : Obligations.HeaderIsWrittenWhole := by
  intro s t answer changed
  refine (step_to answer).header_cases.resolve_left fun ⟨cmd, len, chk⟩ => changed ?_
  rw [cmd, len, chk]

/-- Settles O45: the rules that end in an error write none of these registers, and only PAY-OVERSIZE under Drain leaves IDLE. -/
theorem errorLeavesTheRest : Obligations.ErrorLeavesTheRest := by
  intro s t e answer error
  cases step_to answer with
  | starve =>
    obtain ⟨_, h⟩ | ⟨_, _, _, _, h⟩ | ⟨_, _, _, _, h⟩ := s.openMicro.pendingStop_cases
    · simp [h] at error
    · simp [h] at error
    · simp [h]
  | zero _ _ _ answer | payload _ _ _ _ _ _ answer =>
    simp [eq_dispatched_of_exec answer, State.dispatched] at error
  | noise | magic | header | discard => simp at error
  | short | dropped | payloadShort | discardShort => simp
  | draining _ _ _ policy =>
    have kind : ErrInfo.frameTooLarge s.hdrLen.toNat = e := by simpa using error
    simp [policy, ← kind, ErrInfo.kind]

end Sys2Proof.Machine

/-! The turns of a transport that is quiet after those listed (20_memory.md R73). -/

namespace Sys2Proof.Machine

section
variable {s : State} (quiet : s.tail = .quiet)
include quiet

/-- The coming turn is the first one listed, or none is and it brings nothing. -/
theorem State.turns_cases : s.turns = s.turn :: s.openMicro.turns ∨
    (s.turns = [] ∧ s.turn = Turn.quiet ∧ s.openMicro.turns = []) := by
  cases listed : s.turns with
  | nil =>
    obtain ⟨turn, advance⟩ := State.advanceTurn_quiet s listed quiet
    exact .inr ⟨rfl, turn, by simp [State.openMicro, advance, listed]⟩
  | cons t ts =>
    obtain ⟨turn, advance⟩ := State.advanceTurn_cons s listed
    exact .inl (by simp [State.openMicro, turn, advance])

theorem State.openMicro_tail_of_quiet : s.openMicro.tail = .quiet := by
  cases listed : s.turns with
  | nil => simp [State.openMicro, (State.advanceTurn_quiet s listed quiet).2, quiet]
  | cons t ts => simp [State.openMicro, (State.advanceTurn_cons s listed).2, quiet]

theorem State.arriving_turns : arriving s.turns = s.turn.arrive.length + arriving s.openMicro.turns := by
  obtain listed | ⟨listed, turn, rest⟩ := State.turns_cases quiet
  · rw [listed]
    rfl
  · rw [listed, turn, rest]
    rfl

end

end Sys2Proof.Machine

/-! The host's call (40_framer.md R118, R119). -/

namespace Sys2Proof.Machine

theorem runCall_succ {s t : State} (answer : step s = .next t) (n : Nat) :
    runCall (n + 1) s = if t.inCall then runCall n t else .next (t.lastOutcome, t) := by
  rw [runCall, answer]

theorem State.lastOutcome_of_stops {s : State} {stops : List Stop} {e : Stop} (h : s.stops = stops ++ [e]) :
    s.lastOutcome = some e.outcome := by
  simp [State.lastOutcome, h]

/-- Settles O44: while the call goes on no micro-step has stopped, and the one that stops ends it. -/
theorem callStopsOnce : Obligations.CallStopsOnce := by
  intro n
  induction n with
  | zero =>
    intro s t o ended
    cases ended
    exact .inl ⟨rfl, rfl⟩
  | succ n ih =>
    intro s t o ended
    obtain ⟨u, answer⟩ := everyMicroStepAnswersNext s
    rw [runCall_succ answer] at ended
    obtain ⟨goes, same⟩ | ⟨stopped, e, stop⟩ := (step_to answer).stop_cases
    · rw [if_pos goes] at ended
      simpa [same] using ih u t o ended
    · rw [if_neg (by simp [stopped])] at ended
      cases ended
      exact .inr ⟨e, stop, State.lastOutcome_of_stops stop, stopped⟩

/-- A call from a state with fewer than n bytes in rxq or to come ends within n micro-steps: each that goes on consumes one. -/
theorem runCall_ends (n : Nat) : ∀ s : State, Inv s → s.tail = .quiet → s.rxq.length + arriving s.turns < n →
    ∃ o t, runCall n s = .next (some o, t) ∧ t.inCall = false := by
  induction n with
  | zero => intro s _ _ few; omega
  | succ n ih =>
    intro s inv quiet few
    obtain ⟨t, answer⟩ := everyMicroStepAnswersNext s
    rw [runCall_succ answer]
    obtain ⟨goes, _⟩ | ⟨stopped, e, stop⟩ := (step_to answer).stop_cases
    · rw [if_pos goes]
      obtain ⟨turns, tail⟩ := (step_to answer).transport
      have bytes := State.arriving_turns quiet
      have consumed := (microStepStopsOrConsumes s t inv answer).resolve_left (by simp [goes])
      refine ih t (stepKeepsInvariant s t inv answer) (tail.trans (State.openMicro_tail_of_quiet quiet)) ?_
      rw [List.length_append] at consumed
      rw [turns]
      omega
    · rw [if_neg (by simp [stopped]), State.lastOutcome_of_stops stop]
      exact ⟨_, t, rfl, stopped⟩

/-- Settles O43: the bound is one more than the bytes in rxq and to come. -/
theorem callEndsWithinItsBound : Obligations.CallEndsWithinItsBound :=
  fun s inv quiet => runCall_ends (callBound s) s inv quiet (Nat.lt_succ_self _)

end Sys2Proof.Machine

/-! Other contents of rxbuf and another header laid over a state: what a micro-step makes of them (10_state.md R48,
40_framer.md R122). -/

namespace Sys2Proof.Machine

/-- The header registers, which are written together (10_state.md R36). -/
def State.header (s : State) : Byte × Half × Byte := (s.hdrCmd, s.hdrLen, s.hdrChk)

/-- Values for the registers that no rule reads before writing them, the header in RD_PAY excepted. -/
structure Unread where
  rxbuf : Memory
  rxDraw : Nat
  header : Byte × Half × Byte

/-- The state with these values in place of its own. -/
def State.overlay (v : Unread) (s : State) : State :=
  { s with rxbuf := v.rxbuf, rxDraw := v.rxDraw, hdrCmd := v.header.1, hdrLen := v.header.2.1, hdrChk := v.header.2.2 }

/-- The values are the state's own where a micro-step reads them: command and length in RD_PAY, and the checksum where ACTION_RESULT
does. -/
def Unread.Agrees (v : Unread) (s : State) : Prop :=
  s.fsm = .rdPay → v.header.1 = s.hdrCmd ∧ v.header.2.1 = s.hdrLen ∧
    (v.header.2.2 = s.hdrChk ∨ s.cfg.action = .commandCode)

/-- How values v over s turn into values w over t when a micro-step takes s to t: rxbuf is written alike in both states, and the header
is kept, or it is written and then t's own. -/
structure Unread.Becomes (s t : State) (v w : Unread) : Prop where
  rxbuf : v.rxbuf = s.rxbuf → w.rxbuf = t.rxbuf
  rxDraw : w.rxDraw = v.rxDraw
  header : w.header = t.header ∨ (w.header = v.header ∧ (t.fsm = .rdPay → s.fsm = .rdPay))

theorem Unread.Becomes.kept {s t : State} (v : Unread) (rxbuf : t.rxbuf = s.rxbuf)
    (rdPay : t.fsm = .rdPay → s.fsm = .rdPay) : v.Becomes s t v :=
  ⟨fun own => own.trans rxbuf.symm, rfl, .inr ⟨rfl, rdPay⟩⟩

section
variable (v : Unread) (s : State)

theorem State.pendingStop_overlay : (s.overlay v).pendingStop = s.pendingStop.overlay v := by
  obtain ⟨untimed, h⟩ | ⟨l, limit, busy, young, h⟩ | ⟨l, limit, busy, old, h⟩ := s.pendingStop_cases
  · rw [h, State.pendingStop_of_no_timer (s := s.overlay v) untimed]
    rfl
  · rw [h, State.pendingStop_of_timer (s := s.overlay v) limit busy]
    exact if_neg (Nat.not_lt.2 young)
  · rw [h, State.pendingStop_of_timer (s := s.overlay v) limit busy, State.clearDrain_eq]
    refine (if_pos old).trans ?_
    rw [State.clearDrain_eq]
    rfl

theorem State.drained_overlay (n : Nat) : (s.overlay v).drained n = (s.drained n).overlay v := by
  rw [State.drained, State.drained, apply_ite (State.overlay v)]
  rfl

theorem State.restartAge_overlay : (s.overlay v).restartAge = s.restartAge.overlay v := by
  rw [State.restartAge_eq, State.restartAge_eq]
  rfl

theorem State.openMicro_overlay : (s.overlay v).openMicro = s.openMicro.overlay v := by
  rw [State.openMicro, State.openMicro, State.advanceTurn, State.advanceTurn]
  cases listed : s.turns with
  | cons t ts => simp [State.overlay, listed, State.turn, State.arrive, State.enterCall]
  | nil => cases quiet : s.tail <;> simp [State.overlay, listed, quiet, State.turn, State.arrive, State.enterCall]

theorem State.dispatched_overlay (i : Instr) : (s.overlay v).dispatched i = (s.dispatched i).overlay v := rfl

end

theorem lookup_modeAfter (cmd : Byte) (len : Half) (chk : Byte) (payload : List Byte) (b : Bool) :
    (lookup cmd len chk payload).modeAfter b = if cmd = 0x04 then true else if cmd = 0x05 then false else b := by
  fun_cases lookup <;> simp_all [Instr.modeAfter]

/-- At the default ACTION_RESULT the checksum of a packet has no part in its dispatch. -/
theorem dispatched_lookup_of_commandCode {s : State} (action : s.cfg.action = .commandCode) (cmd : Byte) (len : Half)
    (chk chk' : Byte) (payload : List Byte) :
    s.dispatched (lookup cmd len chk payload) = s.dispatched (lookup cmd len chk' payload) := by
  simp only [State.dispatched, lookup_result, lookup_reply, lookup_modeAfter, State.gatedResult, actionResult, action]

theorem exec_lookup_overlay {s : State} {chk chk' : Byte} (same : chk' = chk ∨ s.cfg.action = .commandCode) (cmd : Byte)
    (len : Half) (payload : List Byte) (v : Unread) : exec (lookup cmd len chk' payload) (s.overlay v) =
      .next ((s.dispatched (lookup cmd len chk payload)).overlay v) := by
  rw [exec_eq, State.dispatched_overlay]
  obtain rfl | action := same
  · rfl
  · rw [dispatched_lookup_of_commandCode action]

section
variable {v : Unread} {s : State} (agrees : v.Agrees s)
include agrees

theorem selectRule_overlay (t : Turn) : selectRule t (s.overlay v) = selectRule t s := by
  cases fsm : s.fsm with
  | rdPay =>
    have len : (s.overlay v).hdrLen = s.hdrLen := (agrees fsm).2.1
    simp only [selectRule, fsm, show (s.overlay v).fsm = .rdPay from fsm, len]
    rfl
  | idle | rdHdr | drain =>
    simp only [selectRule, fsm, show (s.overlay v).fsm = _ from fsm]
    rfl

theorem payZero_overlay (rdPay : s.fsm = .rdPay) :
    ∃ u, payZero s = .next u ∧ payZero (s.overlay v) = .next (u.overlay v) ∧ v.Becomes s u v := by
  obtain ⟨cmd, _, chk⟩ := agrees rdPay
  refine ⟨_, exec_eq .., ?_, .kept v rfl nofun⟩
  rw [← cmd]
  exact exec_lookup_overlay (s := s.setFsm .idle) chk ..

theorem payOversize_overlay (rdPay : s.fsm = .rdPay) :
    ∃ u, payOversize s = .next u ∧ payOversize (s.overlay v) = .next (u.overlay v) ∧ v.Becomes s u v := by
  have len : (s.overlay v).hdrLen = s.hdrLen := (agrees rdPay).2.1
  rw [payOversize, payOversize, len]
  cases policy : s.cfg.policy <;> simp only [show (s.overlay v).cfg.policy = _ from policy] <;>
    exact ⟨_, rfl, rfl, .kept v rfl nofun⟩

theorem payRead_overlay (rdPay : s.fsm = .rdPay) {t : Turn} (fits : s.hdrLen.toNat ≤ s.cfg.capacity)
    (avail : s.hdrLen.toNat ≤ s.rxAvail) (full : delivered t s.hdrLen.toNat = s.hdrLen.toNat) :
    ∃ u w, payRead t s = .next u ∧ payRead t (s.overlay v) = .next (u.overlay w) ∧ v.Becomes s u w := by
  obtain ⟨cmd, len, chk⟩ := agrees rdPay
  have len : (s.overlay v).hdrLen = s.hdrLen := len
  have answer := payRead_eq t (s.overlay v)
  rw [len] at answer
  refine ⟨_, { v with rxbuf := v.rxbuf.storeAll 0 (s.rxq.take s.hdrLen.toNat) },
    (payRead_eq t s fits avail full).trans (exec_eq ..), (answer fits avail full).trans ?_, ?_⟩
  · rw [← cmd]
    exact exec_lookup_overlay (s := s.buffered s.hdrLen.toNat) chk v.header.1 s.hdrLen (s.rxq.take s.hdrLen.toNat)
      { v with rxbuf := v.rxbuf.storeAll 0 (s.rxq.take s.hdrLen.toNat) }
  · exact ⟨fun own => by rw [own]; rfl, rfl, .inr ⟨rfl, nofun⟩⟩

theorem payShort_overlay (rdPay : s.fsm = .rdPay) {t : Turn} (fits : s.hdrLen.toNat ≤ s.cfg.capacity) :
    ∃ u w, payShort t s = .next u ∧ payShort t (s.overlay v) = .next (u.overlay w) ∧ v.Becomes s u w := by
  have len : (s.overlay v).hdrLen = s.hdrLen := (agrees rdPay).2.1
  have answer := payShort_eq t (s.overlay v)
  rw [len] at answer
  refine ⟨_, { v with rxbuf := v.rxbuf.storeAll 0 (s.rxq.take (delivered t s.hdrLen.toNat)) }, payShort_eq t s fits,
    answer fits, fun own => by rw [own]; rfl, rfl, .inr ⟨rfl, nofun⟩⟩

/-- A micro-step reads none of the values laid over a state where they are not its own. The cases are the branches of `selectRule`,
in its order. -/
theorem microStep_overlay (t : Turn) :
    ∃ u w, microStep t s = .next u ∧ microStep t (s.overlay v) = .next (u.overlay w) ∧ v.Becomes s u w := by
  rw [microStep, microStep, selectRule_overlay agrees]
  fun_cases selectRule t s with
  | case1 | case5 | case10 | case13 =>
    refine ⟨_, v, rfl, congrArg _ (State.pendingStop_overlay ..), .kept v s.pendingStop_rxbuf fun rdPay => ?_⟩
    obtain same | idle := s.pendingStop_fsm_cases
    · exact same.symm.trans rdPay
    · exact absurd (idle.symm.trans rdPay) nofun
  | case2 fsm | case4 fsm | case6 fsm | case14 fsm => exact ⟨_, v, rfl, rfl, .kept v rfl (by simp [State.rxRead, fsm])⟩
  | case3 =>
    exact ⟨_, v, rfl, congrArg _ (State.restartAge_overlay v (((s.rxRead t 1).2.setFsm .rdHdr).setPayCnt 0)),
      .kept v (by simp [State.rxRead]) (by simp)⟩
  | case7 => exact ⟨_, ⟨v.rxbuf, v.rxDraw, State.header _⟩, rfl, rfl, id, rfl, .inl rfl⟩
  | case8 rdPay => exact (payZero_overlay agrees rdPay).imp fun _ h => ⟨v, h⟩
  | case9 rdPay => exact (payOversize_overlay agrees rdPay).imp fun _ h => ⟨v, h⟩
  | case11 rdPay _ fits => exact payShort_overlay agrees rdPay (Nat.not_lt.1 fits)
  | case12 rdPay _ fits avail full =>
    exact payRead_overlay agrees rdPay (Nat.not_lt.1 fits) (Nat.not_lt.1 avail)
      (le_antisymm (delivered_le ..) (Nat.not_lt.1 full))
  | case15 fsm =>
    refine ⟨_, v, rfl, congrArg _ (State.drained_overlay v (s.rxRead t s.drainCount).2 s.drainCount),
      .kept v (by simp [State.rxRead]) ?_⟩
    rw [State.drained_fsm]
    split <;> simp [State.rxRead, fsm]

theorem step_overlay {t : State} (answer : step s = .next t) :
    ∃ w, step (s.overlay v) = .next (t.overlay w) ∧ v.Becomes s t w := by
  have agrees' : v.Agrees s.openMicro := by simpa [Unread.Agrees] using agrees
  obtain ⟨u, w, answer', overlaid, rxbuf, rxDraw, header⟩ := microStep_overlay agrees' s.turn
  obtain rfl : u = t := Host.Outcome.next.inj (answer'.symm.trans answer)
  refine ⟨w, ?_, ?_⟩
  · rw [step, State.openMicro_overlay]
    exact overlaid
  · rw [State.openMicro_rxbuf] at rxbuf
    rw [State.openMicro_fsm] at header
    exact ⟨rxbuf, rxDraw, header⟩

end

/-- The one rule that writes the header enters RD_PAY with it. -/
theorem StepTo.header_eq {s t : State} (h : StepTo s t) (stays : t.fsm = .rdPay → s.fsm = .rdPay) :
    t.header = s.header := by
  obtain ⟨cmd, len, chk⟩ | ⟨rdHdr, rdPay, _⟩ := h.header_cases
  · rw [State.header, cmd, len, chk, State.header]
  · exact absurd (rdHdr.symm.trans (stays rdPay)) nofun

/-- Settles O51: the second state is the first with other values laid over it, which agree in RD_PAY, before and after. -/
theorem unreadRegistersAreUnobservable : Obligations.UnreadRegistersAreUnobservable := by
  rintro s s' t ⟨header, rest⟩ answer
  obtain ⟨v, rfl⟩ : ∃ v : Unread, s.overlay v = s' := ⟨⟨s'.rxbuf, s'.rxDraw, s'.header⟩, rest⟩
  have agrees : v.Agrees s := fun rdPay => by
    obtain ⟨cmd, len, chk⟩ := header rdPay
    exact ⟨cmd.symm, len.symm, .inl chk.symm⟩
  obtain ⟨w, answer', becomes⟩ := step_overlay agrees answer
  refine ⟨_, answer', fun rdPay => ?_, rfl⟩
  change t.hdrCmd = w.header.1 ∧ t.hdrLen = w.header.2.1 ∧ t.hdrChk = w.header.2.2
  obtain written | ⟨kept, stays⟩ := becomes.header
  · rw [written]
    exact ⟨rfl, rfl, rfl⟩
  · obtain ⟨cmd, len, chk⟩ := header (stays rdPay)
    have same := (step_to answer).header_eq stays
    rw [kept]
    exact ⟨(congrArg (·.1) same).trans cmd, (congrArg (·.2.1) same).trans len, (congrArg (·.2.2) same).trans chk⟩

/-- Settles O50: another checksum is a value laid over the state, which a micro-step keeps or overwrites with the bytes it reads. -/
theorem checksumIsNotChecked : Obligations.ChecksumIsNotChecked := by
  intro s t c action answer
  obtain ⟨w, answer', becomes⟩ := step_overlay (v := ⟨s.rxbuf, s.rxDraw, s.hdrCmd, s.hdrLen, c⟩)
    (fun _ => ⟨rfl, rfl, .inr action⟩) answer
  have own : w.header.1 = t.hdrCmd ∧ w.header.2.1 = t.hdrLen := by
    obtain written | ⟨kept, stays⟩ := becomes.header
    · exact ⟨congrArg (·.1) written, congrArg (·.2.1) written⟩
    · have header := (step_to answer).header_eq stays
      rw [kept]
      exact ⟨congrArg (·.1) header.symm, congrArg (·.2.1) header.symm⟩
  refine ⟨_, answer', ?_⟩
  rw [State.overlay, becomes.rxbuf rfl, becomes.rxDraw, own.1, own.2, ← (step_to answer).rxDraw_eq]

end Sys2Proof.Machine

/-! What DRAIN counts (70_reset_and_hazards.md R210). -/

namespace Sys2Proof.Machine

/-- Settles O53: of the rules of DRAIN that end in no error, one waits and the other counts off what it reads. -/
theorem drainCountsEveryByte : Obligations.DrainCountsEveryByte := by
  intro s t drain answer noError
  rw [← State.openMicro_rxq]
  cases step_to answer with
  | starve =>
    refine ⟨0, by simp, Nat.zero_le _, ?_⟩
    obtain ⟨_, h⟩ | ⟨_, _, _, _, h⟩ | ⟨_, _, _, _, h⟩ := s.openMicro.pendingStop_cases
    · simp [h]
    · simp [h]
    · exact absurd (by simp [h]) (noError (.transportStall (s.stallAge + 1)))
  | discard n _ _ hn =>
    refine ⟨n, by simp, hn ▸ Nat.min_le_left .., ?_⟩
    rw [State.drained_drainRem_toNat, State.consume_drainRem, State.openMicro_drainRem]
    omega
  | discardShort n => exact absurd (by simp) (noError (.transportReadFailure n (delivered s.turn n)))
  | noise fsm | magic fsm | header _ _ _ _ _ fsm | zero _ fsm | dropped fsm | draining fsm | payload _ fsm
  | payloadShort fsm => exact absurd (drain.symm.trans fsm) nofun
  | short _ opening => obtain ⟨fsm, _⟩ | ⟨fsm, _⟩ := opening <;> exact absurd (drain.symm.trans fsm) nofun

end Sys2Proof.Machine

/-! A transport that brings nothing more and delivers all. -/

namespace Sys2Proof.Machine

@[simp] theorem run_one (s : State) : run 1 s = step s := by
  obtain ⟨t, answer⟩ := everyMicroStepAnswersNext s
  rw [run_succ 0 answer, run_zero, answer]

section
variable {s : State} (quiet : s.isQuiet)
include quiet

theorem State.turn_of_isQuiet : s.turn = Turn.quiet := (s.advanceTurn_quiet quiet.1 quiet.2).1

theorem State.openMicro_of_isQuiet : s.openMicro = s.enterCall := by
  obtain ⟨turn, advance⟩ := s.advanceTurn_quiet quiet.1 quiet.2
  simp [State.openMicro, turn, advance, Turn.quiet, State.arrive]

theorem State.openMicro_rxq_of_isQuiet : s.openMicro.rxq = s.rxq := by
  rw [State.openMicro_of_isQuiet quiet, State.enterCall_rxq]

theorem State.delivered_of_isQuiet (n : Nat) : delivered s.turn n = n := by
  rw [State.turn_of_isQuiet quiet]
  rfl

theorem step_starved_of_isQuiet (starved : Starved s) :
    step s = .next s.enterCall.pendingStop := by
  rw [← State.openMicro_of_isQuiet quiet]
  refine step_eq_pendingStop ?_
  rw [State.openMicro_of_isQuiet quiet]
  exact starved

variable (unbounded : s.cfg.rxDepth = none)
include unbounded

theorem State.openMicro_rxAvail_of_isQuiet : s.openMicro.rxAvail = s.rxq.length := by
  rw [State.rxAvail, State.openMicro_cfg, unbounded, State.openMicro_rxq_of_isQuiet quiet]

theorem step_noise_of_isQuiet (idle : s.fsm = .idle) {b : Byte} {rest : List Byte} (hq : s.rxq = b :: rest)
    (noise : b ≠ s.cfg.magic) : step s = .next { s with rxq := rest, inCall := true } := by
  have avail : 1 ≤ s.openMicro.rxAvail := by simp [State.openMicro_rxAvail_of_isQuiet quiet unbounded, hq]
  have hq' : s.openMicro.rxq = b :: rest := (State.openMicro_rxq_of_isQuiet quiet).trans hq
  rw [idleNoiseIsDropped s b rest idle avail (State.delivered_of_isQuiet quiet 1) hq' noise,
    State.openMicro_of_isQuiet quiet]
  rfl

theorem step_magic_of_isQuiet (idle : s.fsm = .idle) {rest : List Byte} (hq : s.rxq = s.cfg.magic :: rest) :
    step s = .next { s with
      fsm := .rdHdr
      payCnt := 0
      stallAge := if s.cfg.stallLimit = none then s.stallAge else 0
      rxq := rest
      inCall := true } := by
  have avail : 1 ≤ s.openMicro.rxAvail := by simp [State.openMicro_rxAvail_of_isQuiet quiet unbounded, hq]
  have hq' : s.openMicro.rxq = s.cfg.magic :: rest := (State.openMicro_rxq_of_isQuiet quiet).trans hq
  rw [idleMagicOpensAPacket s rest idle avail (State.delivered_of_isQuiet quiet 1) hq', State.openMicro_of_isQuiet quiet]
  rfl

theorem step_header_of_isQuiet (rdHdr : s.fsm = .rdHdr) {b0 b1 b2 b3 : Byte} {rest : List Byte}
    (hq : s.rxq = b0 :: b1 :: b2 :: b3 :: rest) :
    step s = .next { s with
      fsm := .rdPay
      hdrCmd := b0
      hdrLen := assembleLen b1 b2
      hdrChk := b3
      rxq := rest
      inCall := true } := by
  have avail : 4 ≤ s.openMicro.rxAvail := by simp [State.openMicro_rxAvail_of_isQuiet quiet unbounded, hq]
  have hq' : s.openMicro.rxq = b0 :: b1 :: b2 :: b3 :: rest := (State.openMicro_rxq_of_isQuiet quiet).trans hq
  rw [headerIsAssembled s b0 b1 b2 b3 rest rdHdr avail (State.delivered_of_isQuiet quiet 4) hq',
    State.openMicro_of_isQuiet quiet]
  rfl

variable {i : Instr} {rest : List Byte} (wf : i.wf s.cfg = true)
include wf

/-- The last of a packet's three micro-steps. -/
theorem step_payload_of_isQuiet (rdPay : s.fsm = .rdPay) (header : s.header = (i.cmd, i.len, i.chk))
    (hq : s.rxq = i.payload ++ rest) :
    step s = exec i { s with
      fsm := .idle
      rxbuf := s.rxbuf.storeAll 0 i.payload
      rxq := rest
      inCall := true } := by
  obtain ⟨length, fits, unlisted⟩ := (i.wf_iff s.cfg).1 wf
  simp only [State.header, Prod.mk.injEq] at header
  obtain ⟨cmd, len, chk⟩ := header
  have avail : s.hdrLen.toNat ≤ s.openMicro.rxAvail := by
    simp [State.openMicro_rxAvail_of_isQuiet quiet unbounded, hq, len, length]
  have answer := step_eq_exec rdPay (by rwa [len]) avail (State.delivered_of_isQuiet quiet _)
  rw [State.openMicro_of_isQuiet quiet, State.enterCall_rxq, cmd, len, chk, hq, List.take_left' length,
    lookup_of_cmdUnlisted unlisted, State.buffered, State.enterCall_rxq, hq, List.take_left' length,
    List.drop_left' length] at answer
  exact answer

/-- The last two of a packet's three micro-steps. -/
theorem run_header_of_isQuiet (rdHdr : s.fsm = .rdHdr)
    (hq : s.rxq = i.cmd :: lenLow i.len :: lenHigh i.len :: i.chk :: (i.payload ++ rest)) :
    run 2 s = exec i { s with
      fsm := .idle
      hdrCmd := i.cmd
      hdrLen := i.len
      hdrChk := i.chk
      rxbuf := s.rxbuf.storeAll 0 i.payload
      rxq := rest
      inCall := true } := by
  have header := step_header_of_isQuiet quiet unbounded rdHdr hq
  rw [assembleLen_lenLow_lenHigh] at header
  refine (run_succ 1 header).trans ((run_one _).trans ((step_payload_of_isQuiet (i := i) ?_ ?_ ?_ rfl rfl rfl).trans rfl))
  · exact quiet
  · exact unbounded
  · exact wf

end

/-- Settles O37: MAGIC, the header, and the payload with its meaning, a micro-step each. -/
theorem packetOnTheWireRunsInThreeMicroSteps : Obligations.PacketOnTheWireRunsInThreeMicroSteps := by
  intro s i rest idle quiet unbounded wf hq
  refine (run_succ 2 (step_magic_of_isQuiet quiet unbounded idle hq)).trans
    ((run_header_of_isQuiet (i := i) ?_ ?_ ?_ rfl rfl).trans rfl)
  · exact quiet
  · exact unbounded
  · exact wf

/-- Settles O52: each noise byte is a micro-step that drops it, and the next one starts in the same call. -/
theorem noiseIsDiscardedSilently : Obligations.NoiseIsDiscardedSilently := by
  intro s b noise
  induction noise generalizing s b with
  | nil =>
    intro rest idle quiet unbounded noise hq
    exact (run_one s).trans (step_noise_of_isQuiet quiet unbounded idle hq (noise b (by simp)))
  | cons c noise ih =>
    intro rest idle quiet unbounded isNoise hq
    rw [List.length_cons, run_succ _ (step_noise_of_isQuiet quiet unbounded idle hq (isNoise b (by simp)))]
    exact ih { s with rxq := c :: noise ++ rest, inCall := true } c rest idle quiet unbounded
      (fun x hx => isNoise x (List.mem_cons_of_mem _ hx)) rfl

end Sys2Proof.Machine

/-! Starvation (70_reset_and_hazards.md R206). -/

namespace Sys2Proof.Machine

theorem stops_append_pending (stops : List Stop) (n : Nat) :
    stops ++ [.pending] ++ List.replicate n .pending = stops ++ List.replicate (n + 1) .pending := by
  rw [List.append_assoc, List.singleton_append, List.replicate_succ]

theorem step_starved_of_no_timer {s : State} (untimed : s.cfg.stallLimit = none) (quiet : s.isQuiet) (starved : Starved s) :
    step s = .next (s.stop .pending) :=
  (step_starved_of_isQuiet quiet starved).trans (congrArg _ (State.pendingStop_of_no_timer (s := s.enterCall) (.inl untimed)))

/-- Settles O54: each call adds a Pending and leaves the state starved. -/
theorem stalledPacketIsHeldForEver : Obligations.StalledPacketIsHeldForEver := by
  intro s k untimed quiet starved
  induction k generalizing s with
  | zero => exact (run_one s).trans (step_starved_of_no_timer untimed quiet starved)
  | succ k ih =>
    rw [run_succ _ (step_starved_of_no_timer untimed quiet starved), ih (s.stop .pending) untimed quiet starved,
      ← stops_append_pending s.stops]
    rfl

/-- A starved packet in flight whose age is n below the limit returns Pending n times, and the next call is TransportStall. -/
theorem run_stalled {l : Nat} (n : Nat) : ∀ s : State,
    s.cfg.stallLimit = some l → s.isQuiet → Starved s → s.fsm ≠ .idle → s.stallAge + n = l →
    run (n + 1) s = .next { s with
      fsm := .idle
      stallAge := l + 1
      drainRem := if s.cfg.policy = .drain then 0 else s.drainRem
      inCall := false
      stops := s.stops ++ List.replicate n .pending ++ [.error (.transportStall (l + 1))] } := by
  induction n with
  | zero =>
    intro s limit quiet starved busy age
    obtain rfl : s.stallAge = l := age
    have fires := (pendingStopAgesThePacket s.enterCall).2.2 _ limit busy (Nat.lt_succ_self _)
    rw [run_one, step_starved_of_isQuiet quiet starved, fires, List.replicate_zero, List.append_nil]
    rfl
  | succ n ih =>
    intro s limit quiet starved busy age
    have ages : s.enterCall.pendingStop = (s.setStallAge (s.stallAge + 1)).stop .pending :=
      (pendingStopAgesThePacket s.enterCall).2.1 l limit busy (show s.stallAge + 1 ≤ l by omega)
    have pends := (step_starved_of_isQuiet quiet starved).trans (congrArg _ ages)
    rw [run_succ _ pends, ih ((s.setStallAge (s.stallAge + 1)).stop .pending) limit quiet starved busy
      (show s.stallAge + 1 + n = l by omega), ← stops_append_pending s.stops]
    rfl

/-- Settles O55: from age 0 the limit is L calls away. -/
theorem stallTimerFiresAfterTheLimit : Obligations.StallTimerFiresAfterTheLimit :=
  fun s l limit quiet starved busy age => run_stalled l s limit quiet starved busy (by omega)

theorem State.rxAvail_le_depth {s : State} {d : Nat} (depth : s.cfg.rxDepth = some d) : s.rxAvail ≤ d := by
  rw [State.rxAvail, depth]
  exact Nat.min_le_right ..

/-- Settles O56: whatever arrives, the transport reports no more than its depth, so each micro-step starves. -/
theorem payloadBeyondDepthNeverArrives : Obligations.PayloadBeyondDepthNeverArrives := by
  intro s t d k
  induction k generalizing s with
  | zero =>
    intro _ _ rdPay _ _ ran
    cases ran
    exact ⟨rdPay, rfl, by simp⟩
  | succ k ih =>
    intro untimed depth rdPay deep fits ran
    have few : s.openMicro.rxAvail ≤ d := State.rxAvail_le_depth (by rwa [State.openMicro_cfg])
    have starved : Starved s.openMicro := by
      refine .inr (.inr (.inl ?_))
      rw [State.openMicro_fsm, State.openMicro_hdrLen, State.openMicro_cfg]
      exact ⟨rdPay, by omega, fits, by omega⟩
    have held := step_eq_pendingStop starved
    rw [State.pendingStop_of_no_timer (.inl (by rwa [State.openMicro_cfg]))] at held
    rw [run_succ _ held] at ran
    obtain ⟨rdPay', len, stops⟩ := ih (s.openMicro.stop .pending) (by simpa using untimed) (by simpa using depth)
      (by simpa using rdPay) (by simpa using deep) (by simpa using fits) ran
    refine ⟨rdPay', by simpa using len, ?_⟩
    rw [stops, State.stop_stops, State.openMicro_stops, stops_append_pending]

end Sys2Proof.Machine

/-! A session of full reads and no stall timer, as R121 has it (40_framer.md). -/

namespace Sys2Proof.Machine

/-- The premises of R121 on a state: nothing comes after the turns listed, each delivers all that is asked for, and there is
no stall timer. -/
structure Fed (s : State) : Prop where
  quiet : s.tail = .quiet
  untimed : s.cfg.stallLimit = none
  full : allDeliver s.turns

section
variable {s : State} (fed : Fed s)
include fed

theorem Fed.delivered_eq (n : Nat) : delivered s.turn n = n := by
  refine delivered_all ?_ n
  obtain listed | ⟨_, turn, _⟩ := State.turns_cases fed.quiet
  · exact fed.full _ (by simp [listed])
  · rw [turn]
    rfl

theorem Fed.not_short (n : Nat) : ¬ delivered s.turn n < n := by
  rw [fed.delivered_eq]
  exact Nat.lt_irrefl n

theorem Fed.after_step {t : State} (answer : step s = .next t) : Fed t := by
  obtain ⟨turns, tail⟩ := (step_to answer).transport
  refine ⟨tail.trans (State.openMicro_tail_of_quiet fed.quiet), (step_to answer).cfg_eq ▸ fed.untimed,
    fun turn later => ?_⟩
  rw [turns] at later
  obtain listed | ⟨_, _, rest⟩ := State.turns_cases fed.quiet
  · exact fed.full turn (by rw [listed]; exact List.mem_cons_of_mem _ later)
  · simp [rest] at later

theorem Fed.after_run {k : Nat} {t : State} (ran : run k s = .next t) : Fed t :=
  run_induction (fun _ _ fed answer => fed.after_step answer) k s t fed ran

theorem Fed.arrivals_turns : arrivals s.turns = s.turn.arrive ++ arrivals s.openMicro.turns := by
  obtain listed | ⟨listed, turn, rest⟩ := State.turns_cases fed.quiet
  · rw [listed]
    simp [arrivals]
  · simp [listed, turn, rest, arrivals, Turn.quiet]

end

end Sys2Proof.Machine

/-! All the bytes of a session at once. -/

namespace Sys2Proof.Machine

theorem State.pending_not_mem_answers (s : State) : Stop.pending ∉ s.answers := by
  simp [State.answers]

/-- The state in which every byte still to come has arrived, with the Pending stops struck from its log. -/
def State.poured (s : State) : State :=
  { s with rxq := s.rxq ++ arrivals s.turns, turns := [], stops := s.answers }

/-- The same between calls. -/
def State.gathered (s : State) : State := { s.poured with inCall := false }

theorem State.gathered_poured (s : State) : s.poured.gathered = s.gathered := by
  simp [State.gathered, State.poured, State.answers, arrivals]

theorem State.rxAvail_eq_zero_iff {s : State} : s.rxAvail = 0 ↔ s.rxq = [] ∨ s.cfg.rxDepth = some 0 := by
  cases depth : s.cfg.rxDepth <;> simp [State.rxAvail, depth]

theorem State.rxAvail_le_poured (s : State) : s.rxAvail ≤ s.poured.rxAvail := by
  cases depth : s.cfg.rxDepth <;> simp [State.rxAvail, State.poured, depth]

section
variable {s : State}

theorem State.poured_consume {k : Nat} (inQueue : k ≤ s.rxq.length) : (s.consume k).poured = s.poured.consume k := by
  simp [State.poured, State.consume, State.answers, List.drop_append_of_le_length inQueue]

theorem State.poured_head? (nonempty : 1 ≤ s.rxq.length) : s.poured.rxq.head? = s.rxq.head? := by
  obtain ⟨b, rest, hq⟩ := List.exists_cons_of_length_pos nonempty
  rw [State.poured, hq]
  rfl

theorem State.poured_take {k : Nat} (inQueue : k ≤ s.rxq.length) : s.poured.rxq.take k = s.rxq.take k :=
  List.take_append_of_le_length inQueue

theorem State.poured_stop {e : Stop} (answer : e ≠ .pending) : (s.stop e).poured = s.poured.stop e := by
  simp [State.poured, State.stop, State.answers, answer]

theorem State.poured_raiseError (e : ErrInfo) (f : Fsm) : (s.raiseError e f).poured = s.poured.raiseError e f :=
  State.poured_stop (s := s.setFsm f) (e := .error e) nofun

theorem State.poured_dispatched (i : Instr) : (s.dispatched i).poured = s.poured.dispatched i :=
  State.poured_stop (s := (s.setDebugMode (i.modeAfter s.debugMode)).txWrite (i.reply s.cfg))
    (e := .completed (i.result s)) nofun

theorem State.poured_buffered {k : Nat} (inQueue : k ≤ s.rxq.length) :
    (s.buffered k).poured = s.poured.buffered k := by
  simp [State.poured, State.buffered, State.answers, List.drop_append_of_le_length inQueue,
    List.take_append_of_le_length inQueue]

theorem State.poured_restartAge : s.restartAge.poured = s.poured.restartAge := by
  rw [State.restartAge_eq, State.restartAge_eq]
  rfl

theorem State.gathered_consume {k : Nat} (inQueue : k ≤ s.rxq.length) :
    (s.consume k).gathered = s.gathered.consume k := by
  rw [State.gathered, State.poured_consume inQueue]
  rfl

/-- A Pending stop leaves no trace in what is gathered. -/
theorem State.gathered_stop_pending : (s.stop .pending).gathered = s.gathered := by
  simp [State.gathered, State.poured, State.stop, State.answers]

theorem Fed.gathered_openMicro (fed : Fed s) : s.openMicro.gathered = s.gathered := by
  ext1 <;> simp [State.gathered, State.poured, State.answers, fed.arrivals_turns, fed.quiet,
    State.openMicro_tail_of_quiet fed.quiet]

theorem Fed.isQuiet_gathered (fed : Fed s) : s.gathered.isQuiet := ⟨rfl, fed.quiet⟩

theorem Fed.openMicro_gathered (fed : Fed s) : s.gathered.openMicro = s.openMicro.poured := by
  rw [State.openMicro_of_isQuiet fed.isQuiet_gathered, ← fed.gathered_openMicro]
  ext1 <;> simp [State.gathered, State.poured]

end

end Sys2Proof.Machine

/-! DRAIN with every byte at hand. -/

namespace Sys2Proof.Machine

/-- What DRAIN makes of the bytes at hand, however few at a time the transport reports: it discards them up to drain_rem. A
transport that reports none leaves the state as it is. -/
def State.drainAll (s : State) : State :=
  if s.fsm = .drain ∧ s.rxAvail ≠ 0 then
    (s.consume (min s.rxq.length s.drainRem.toNat)).drained (min s.rxq.length s.drainRem.toNat)
  else s

@[simp] theorem State.drainAll_stops (s : State) : s.drainAll.stops = s.stops := by
  rw [State.drainAll]
  split <;> simp

theorem State.drainAll_of_ne_drain {s : State} (elsewhere : s.fsm ≠ .drain) : s.drainAll = s :=
  if_neg fun ⟨drain, _⟩ => elsewhere drain

theorem State.drainAll_of_starved {s : State} (starved : Starved s) : s.drainAll = s := by
  refine if_neg fun ⟨drain, avail⟩ => avail ?_
  simpa [Starved, drain] using starved

theorem State.gathered_drained (s : State) (n : Nat) : (s.drained n).gathered = s.gathered.drained n := by
  rw [State.drained, State.drained, apply_ite State.gathered]
  rfl

/-- Discarding a bytes, which leave something to drain, and then b is discarding a + b. -/
theorem State.drained_drained {s : State} {a b : Nat} (more : a < s.drainRem.toNat) :
    (((s.consume a).drained a).consume b).drained b = (s.consume (a + b)).drained (a + b) := by
  have left : ((s.consume a).drained a).drainRem ≠ 0#16 := by
    rw [BitVec.toNat_ne, State.drained_drainRem_toNat, State.consume_drainRem]
    exact Nat.sub_ne_zero_of_lt more
  have rem : ((((s.consume a).drained a).consume b).drained b).drainRem =
      ((s.consume (a + b)).drained (a + b)).drainRem := by
    apply BitVec.eq_of_toNat_eq
    simp only [State.drained_drainRem_toNat, State.consume_drainRem, Nat.sub_sub]
  ext1 <;> simp [State.drained_fsm, rem, left]

/-- A micro-step that discards some of the bytes at hand changes nothing of what all of them make of DRAIN. -/
theorem State.drainAll_drained {s : State} {n : Nat} (drain : s.fsm = .drain) (avail : s.rxAvail ≠ 0)
    (inQueue : n ≤ s.rxq.length) (inDrain : n ≤ s.drainRem.toNat) :
    ((s.consume n).drained n).drainAll = s.drainAll := by
  have all : s.drainAll =
      (s.consume (min s.rxq.length s.drainRem.toNat)).drained (min s.rxq.length s.drainRem.toNat) :=
    if_pos ⟨drain, avail⟩
  have rem : ((s.consume n).drained n).drainRem.toNat = s.drainRem.toNat - n := State.drained_drainRem_toNat ..
  rw [all]
  obtain last | more := inDrain.eq_or_lt
  · have idle : ((s.consume n).drained n).fsm ≠ .drain := by
      rw [State.drained_fsm, if_pos (BitVec.eq_of_toNat_eq (y := 0) (rem.trans (Nat.sub_eq_zero_of_le last.ge)))]
      nofun
    rw [State.drainAll_of_ne_drain idle, ← last, Nat.min_eq_right inQueue]
  have still : ((s.consume n).drained n).fsm = .drain := by
    rw [State.drained_fsm, if_neg fun done => Nat.sub_ne_zero_of_lt more (rem.symm.trans (congrArg BitVec.toNat done)),
      State.consume_fsm, drain]
  by_cases empty : ((s.consume n).drained n).rxAvail = 0
  · have unbounded : s.cfg.rxDepth ≠ some 0 := mt (State.rxAvail_eq_zero_iff.2 ∘ .inr) avail
    have n_eq : s.rxq.length = n := by
      have drained := (State.rxAvail_eq_zero_iff.1 empty).resolve_right (by simpa using unbounded)
      simp only [State.drained_rxq, State.consume_rxq, List.drop_eq_nil_iff] at drained
      omega
    rw [State.drainAll, if_neg fun ⟨_, avail⟩ => avail empty, n_eq, Nat.min_eq_left inDrain]
  · have split : n + min ((s.consume n).drained n).rxq.length ((s.consume n).drained n).drainRem.toNat =
        min s.rxq.length s.drainRem.toNat := by
      rw [rem, State.drained_rxq, State.consume_rxq, List.length_drop]
      omega
    rw [State.drainAll, if_pos ⟨still, empty⟩, State.drained_drained more, split]

end Sys2Proof.Machine

/-! The view of a session: the state that its bytes amount to, however they are cut. -/

namespace Sys2Proof.Machine

/-- What is gathered of a state, its DRAIN run as far as the bytes go. -/
def State.view (s : State) : State := s.gathered.drainAll

@[simp] theorem State.view_stops (s : State) : s.view.stops = s.answers := s.gathered.drainAll_stops

@[simp] theorem State.view_answers (s : State) : s.view.answers = s.answers := by
  rw [State.answers, State.view_stops]
  simp [State.answers]

theorem State.view_poured (s : State) : s.poured.view = s.view := congrArg State.drainAll s.gathered_poured

/-- A micro-step on a view that does not starve, and the view of what it answers. -/
def Advance (v w : State) : Prop := ∃ u, step v = .next u ∧ u.stops ≠ v.stops ++ [.pending] ∧ w = u.view

theorem advance_rightUnique : Relator.RightUnique Advance := by
  rintro v w w' ⟨u, answer, _, rfl⟩ ⟨u', answer', _, rfl⟩
  rw [Host.Outcome.next.inj (answer.symm.trans answer')]

theorem payOversize_poured {s t : State} (answer : payOversize s = .next t) : payOversize s.poured = .next t.poured := by
  rw [payOversize] at answer ⊢
  cases policy : s.cfg.policy with
  | drop | drain =>
    simp only [policy] at answer
    obtain rfl := Host.Outcome.next.inj answer
    simp only [show s.poured.cfg.policy = _ from policy, State.poured_raiseError]
    rfl

section
variable {s t : State} (fed : Fed s) (answer : step s = .next t)
include fed

theorem Fed.rxAvail_le_openMicro_gathered : s.openMicro.rxAvail ≤ s.gathered.openMicro.rxAvail :=
  fed.openMicro_gathered ▸ s.openMicro.rxAvail_le_poured

theorem Fed.rxAvail_le_gathered : s.openMicro.rxAvail ≤ s.gathered.rxAvail := by
  have more := fed.rxAvail_le_openMicro_gathered
  rwa [State.openMicro_of_isQuiet fed.isQuiet_gathered] at more

include answer

theorem Fed.step_gathered_packet (rdPay : s.fsm = .rdPay) (fits : s.hdrLen.toNat ≤ s.cfg.capacity)
    (avail : s.hdrLen.toNat ≤ s.openMicro.rxAvail) : step s.gathered = .next t.poured := by
  have read := avail.trans s.openMicro.rxAvail_le
  rw [step_eq_exec rdPay fits avail (fed.delivered_eq _)] at answer
  rw [step_eq_exec (s := s.gathered) rdPay fits (avail.trans fed.rxAvail_le_openMicro_gathered)
    (State.delivered_of_isQuiet fed.isQuiet_gathered _), exec_eq, fed.openMicro_gathered, eq_dispatched_of_exec answer,
    State.poured_dispatched, State.poured_buffered read, ← State.poured_take read]
  rfl

/-- Outside DRAIN a micro-step that does not starve does the same where all the bytes have arrived: those behind the ones it
reads have no part in it. -/
theorem Fed.step_gathered (fsm : s.fsm ≠ .drain) (fresh : ¬ Starved s.openMicro) :
    step s.gathered = .next t.poured := by
  have opened := fed.openMicro_gathered
  have more := fed.rxAvail_le_openMicro_gathered
  have inQueue := s.openMicro.rxAvail_le
  have full := State.delivered_of_isQuiet fed.isQuiet_gathered
  cases step_to answer with
  | starve starved => exact absurd starved fresh
  | discard _ drain | discardShort _ drain => exact absurd drain fsm
  | short _ _ _ short | payloadShort _ _ _ _ short => exact absurd short (fed.not_short _)
  | noise idle avail _ noise =>
    have read := avail.trans inQueue
    rw [step_eq_idleNoise (s := s.gathered) idle (avail.trans more) (full 1) (by rwa [opened, State.poured_head? read]),
      idleNoise, State.rxRead, full, opened, State.poured_consume read]
  | magic idle avail _ magic =>
    have read := avail.trans inQueue
    rw [step_eq_idleMagic (s := s.gathered) idle (avail.trans more) (full 1) (by rwa [opened, State.poured_head? read]),
      idleMagic, State.rxRead, full, opened, State.poured_restartAge, ← State.poured_consume read]
    rfl
  | header b0 b1 b2 b3 rest rdHdr avail _ hq =>
    rw [step_eq_hdrAssemble (s := s.gathered) rdHdr (avail.trans more) (full 4), hdrAssemble, State.rxRead, full, opened,
      ← State.poured_consume (avail.trans inQueue), State.poured, State.poured, hq]
    rfl
  | zero _ rdPay zero => exact fed.step_gathered_packet answer rdPay (by omega) (by omega)
  | payload _ rdPay _ fits avail => exact fed.step_gathered_packet answer rdPay fits avail
  | dropped rdPay tooLong | draining rdPay tooLong =>
    rw [step_eq_payOversize (s := s.gathered) rdPay tooLong, opened]
    rw [step_eq_payOversize rdPay tooLong] at answer
    exact payOversize_poured answer

theorem Fed.view_eq_of_starved (starved : Starved s.openMicro) : t.view = s.view := by
  have held := step_eq_pendingStop starved
  rw [State.pendingStop_of_no_timer (.inl (by simpa using fed.untimed))] at held
  obtain rfl := Host.Outcome.next.inj (answer.symm.trans held)
  exact congrArg State.drainAll (State.gathered_stop_pending.trans fed.gathered_openMicro)

theorem Fed.view_eq_of_drain (drain : s.fsm = .drain) (avail : 1 ≤ s.openMicro.rxAvail) : t.view = s.view := by
  have all := fed.delivered_eq s.openMicro.drainCount
  rw [step_eq_drainDiscard drain avail all, drainDiscard, State.rxRead, all] at answer
  obtain rfl := Host.Outcome.next.inj answer
  have reported : s.openMicro.drainCount ≤ s.openMicro.rxAvail := Nat.min_le_left ..
  have inDrain : s.openMicro.drainCount ≤ s.drainRem.toNat := s.openMicro_drainCount ▸ Nat.min_le_right ..
  have more := fed.rxAvail_le_gathered
  rw [State.view, State.gathered_drained, State.gathered_consume (reported.trans s.openMicro.rxAvail_le),
    fed.gathered_openMicro]
  exact State.drainAll_drained drain (Nat.ne_of_gt (avail.trans more))
    ((reported.trans more).trans s.gathered.rxAvail_le) inDrain

theorem Fed.advance_view (fsm : s.fsm ≠ .drain) (fresh : ¬ Starved s.openMicro) : Advance s.view t.view := by
  rw [State.view, State.drainAll_of_ne_drain (s := s.gathered) fsm]
  refine ⟨t.poured, fed.step_gathered answer fsm fresh, fun pended => ?_, t.view_poured.symm⟩
  have pending : Stop.pending ∈ t.answers := by
    rw [show t.answers = s.gathered.stops ++ [.pending] from pended]
    simp
  exact t.pending_not_mem_answers pending

/-- A micro-step keeps the view, or it is a micro-step on it. -/
theorem Fed.view_cases : t.view = s.view ∨ Advance s.view t.view := by
  by_cases starved : Starved s.openMicro
  · exact .inl (fed.view_eq_of_starved answer starved)
  by_cases drain : s.fsm = .drain
  · have drain' : s.openMicro.fsm = .drain := by simpa using drain
    have avail := Nat.pos_of_ne_zero fun empty => starved (.inr (.inr (.inr ⟨drain', empty⟩)))
    exact .inl (fed.view_eq_of_drain answer drain avail)
  · exact .inr (fed.advance_view answer drain starved)

end

/-- What a session has come to is a number of micro-steps on from where it began. -/
theorem Fed.view_run {k : Nat} :
    ∀ {s t : State}, Fed s → run k s = .next t → Relation.ReflTransGen Advance s.view t.view := by
  induction k with
  | zero =>
    intro s t _ ran
    cases ran
    exact .refl
  | succ k ih =>
    intro s t fed ran
    obtain ⟨u, answer, rest⟩ := run_succ_next ran
    have later := ih (fed.after_step answer) rest
    obtain same | advance := fed.view_cases answer
    · rwa [same] at later
    · exact .head advance later

end Sys2Proof.Machine

/-! Settled sessions. -/

namespace Sys2Proof.Machine

/-- A run of k + 1 micro-steps that answers next ends with a micro-step that does. -/
theorem run_succ_last {k : Nat} :
    ∀ {s t : State}, run (k + 1) s = .next t → ∃ u, run k s = .next u ∧ step u = .next t := by
  induction k with
  | zero => exact fun {s t} ran => ⟨s, rfl, (run_one s).symm.trans ran⟩
  | succ k ih =>
    intro s t ran
    obtain ⟨v, answer, rest⟩ := run_succ_next ran
    obtain ⟨u, before, last⟩ := ih rest
    exact ⟨u, (run_succ k answer).trans before, last⟩

/-- Only a starving micro-step ends a call with Pending. -/
theorem Fed.starved_of_pending {s t : State} (fed : Fed s) (answer : step s = .next t) (stopped : t.inCall = false)
    (pended : t.stops.getLast? = some .pending) : Starved t := by
  cases step_to answer with
  | starve starved =>
    rw [State.pendingStop_of_no_timer (.inl (by simpa using fed.untimed))]
    exact starved
  | zero _ _ _ answer | payload _ _ _ _ _ _ answer =>
    simp [eq_dispatched_of_exec answer, State.dispatched] at pended
  | noise | magic | header | discard => simp at stopped
  | short | dropped | draining | payloadShort | discardShort => simp at pended

theorem Advance.not_of_starved {v w : State} (starved : Starved v) (untimed : v.cfg.stallLimit = none)
    (quiet : v.isQuiet) : ¬ Advance v w := by
  rintro ⟨u, answer, fresh, _⟩
  obtain rfl := Host.Outcome.next.inj (answer.symm.trans (step_starved_of_no_timer untimed quiet starved))
  exact fresh rfl

/-- A settled session's view is what is gathered of it, and no micro-step takes it on. -/
theorem Settled.view {k : Nat} {s t : State} (settled : Settled k s t) (fed : Fed s) :
    t.view = t.gathered ∧ ∀ w, ¬ Advance t.view w := by
  obtain ⟨some, ran, arrived, stopped, pended⟩ := settled
  obtain ⟨k, rfl⟩ := Nat.exists_eq_succ_of_ne_zero (Nat.one_le_iff_ne_zero.1 some)
  obtain ⟨u, before, last⟩ := run_succ_last ran
  have starved : Starved t := (fed.after_run before).starved_of_pending last stopped pended
  have starved : Starved t.gathered := by
    rw [State.gathered, State.poured, arrived, List.append_nil]
    exact starved
  have view : t.view = t.gathered := State.drainAll_of_starved starved
  have fed' := fed.after_run ran
  exact ⟨view, fun w => view ▸ Advance.not_of_starved starved fed'.untimed fed'.isQuiet_gathered⟩

/-- Where a session has come to lies on the way to where another of the same bytes settles: a view has one successor at most. -/
theorem Settled.view_reached {j k : Nat} {s s' u t : State} (settled : Settled k s' t) (fed : Fed s) (fed' : Fed s')
    (same : s.view = s'.view) (ran : run j s = .next u) : Relation.ReflTransGen Advance u.view t.view := by
  have toSettled := fed'.view_run settled.2.1
  rw [← same] at toSettled
  obtain before | after := Relation.ReflTransGen.total_of_right_unique advance_rightUnique (fed.view_run ran) toSettled
  · exact before
  · rw [(Relation.reflTransGen_iff_eq (settled.view fed').2).1 after]

theorem Advance.answers_isPrefix {v w : State} (advance : Advance v w) : v.answers <+: w.answers := by
  obtain ⟨u, answer, _, rfl⟩ := advance
  rw [State.view_answers]
  obtain ⟨_, same⟩ | ⟨_, e, more⟩ := (step_to answer).stop_cases
  · exact List.IsPrefix.filter _ ⟨[], by rw [same, List.append_nil]⟩
  · exact List.IsPrefix.filter _ ⟨[e], more.symm⟩

theorem answers_isPrefix_of_reached {v w : State} (reached : Relation.ReflTransGen Advance v w) :
    v.answers <+: w.answers := by
  induction reached with
  | refl => exact ⟨[], List.append_nil _⟩
  | tail _ advance ih => exact ih.trans advance.answers_isPrefix

/-- The view of a state does not tell how the bytes to come are cut. -/
theorem State.view_turns {s : State} {ts ts' : List Turn} (same : arrivals ts = arrivals ts') :
    State.view { s with turns := ts } = State.view { s with turns := ts' } := by
  simp [State.view, State.gathered, State.poured, State.answers, same]

/-- Settles O57: the answers grow along the way to the settled session. -/
theorem answersSoFarAreAPrefix : Obligations.AnswersSoFarAreAPrefix := by
  intro s u t ts ts' j k quiet untimed full full' same ran settled
  have fed : Fed { s with turns := ts } := ⟨quiet, untimed, full⟩
  have fed' : Fed { s with turns := ts' } := ⟨quiet, untimed, full'⟩
  have reached := settled.view_reached fed fed' (State.view_turns same) ran
  simpa using answers_isPrefix_of_reached reached

/-- Settles O58: the one settled session lies on the way to the other and goes no further, so both have the same view. -/
theorem chunkSizeIndependence : Obligations.ChunkSizeIndependence := by
  intro s t t' ts ts' k k' quiet untimed full full' same settled settled'
  have fed : Fed { s with turns := ts } := ⟨quiet, untimed, full⟩
  have fed' : Fed { s with turns := ts' } := ⟨quiet, untimed, full'⟩
  obtain ⟨view, stuck⟩ := settled.view fed
  obtain ⟨view', _⟩ := settled'.view fed'
  have reached := settled'.view_reached fed fed' (State.view_turns same) settled.2.1
  have gathered : t.gathered = t'.gathered := by
    rw [← view, ← view', (Relation.reflTransGen_iff_eq stuck).1 reached]
  have field {α : Type} (f : State → α) : f t.gathered = f t'.gathered := congrArg f gathered
  exact ⟨field State.stops, field State.txq, field State.debugMode, field State.fsm⟩

end Sys2Proof.Machine
